-- ==== Sys2Proof/Word.lean ====
section
/-! DEFINITION. Bytes, the numeric limits of the manual, and vectors indexed by `Fin`. -/

namespace Sys2Proof

/-- One byte of a frame (12, "Field widths are in bytes"). -/
abbrev Byte := BitVec 8

/-- 281,474,976,710,655, the largest value of a 48-bit accumulator (R9). -/
abbrev cap48 : Nat := 281474976710655

/-- 4,294,967,295, the largest value of a 32-bit count (R9). -/
abbrev cap32 : Nat := 4294967295

/-- 65,535, the largest value of a 16-bit count (R132, R145). -/
abbrev cap16 : Nat := 65535

/-- Entry `i` of a vector with one entry for each of a fixed number of like things. -/
def vget {α : Type} {n : Nat} (v : Vector α n) (i : Fin n) : α := v[i.val]

/-- The vector with entry `i` replaced. -/
def vset {α : Type} {n : Nat} (v : Vector α n) (i : Fin n) (x : α) : Vector α n := v.set i.val x

/-- The vector whose entry `i` is `f i`. -/
def vgen {α : Type} {n : Nat} (f : Fin n → α) : Vector α n := Vector.ofFn f

end Sys2Proof
end

