-- ==== Sys2Proof/Syntax.lean ====
section
/-! DEFINITION. The commands a sender may put to the part: one constructor of `Instr` for each row of
`spec/opcode_table.json`, with the row's operands. Numeric operands of station commands have the widths of R194. -/

namespace Sys2Proof

/-- The two link ports (09). -/
inductive Side where
  | field
  | plant
  deriving DecidableEq, Repr

/-- The other port. -/
def Side.other : Side → Side
  | .field => .plant
  | .plant => .field

/-- Line rates of a port (09): A is 6.25 Mbit/s, B is 25 Mbit/s. -/
inductive Rate where
  | a
  | b
  deriving DecidableEq, Repr

/-- A set of rates, as an offer burst names it and as lkcf loads it (R156, R166). -/
structure RateSet where
  a : Bool
  b : Bool
  deriving DecidableEq, Repr

/-- Membership of a rate in a set of rates. -/
def RateSet.has (rs : RateSet) : Rate → Bool
  | .a => rs.a
  | .b => rs.b

/-- The signals that bring a port out of DOWN (R156). -/
inductive LinkSignal where
  | burst (rates : RateSet)
  | idle (rate : Rate)
  deriving DecidableEq, Repr

/-- What a port in OFFER saw in a 5 ms window of idle (R157): one rate held, or both rates. -/
inductive IdleSeen where
  | held (rate : Rate)
  | both
  deriving DecidableEq, Repr

/-- The 28 tally pins (R75). -/
inductive Pin where
  | cut (line : Fin 8)
  | rej (line : Fin 8)
  | div (line : Fin 8)
  | rev (furnace : Fin 4)
  deriving DecidableEq, Repr

/-- The pins whose falling edges are events of their own in the table (FALLING_EDGE). -/
inductive EdgePin where
  | cut (line : Fin 8)
  | rej (line : Fin 8)
  deriving DecidableEq, Repr

/-- When the reception of a frame began, told against the events that its storing hangs on (R161, R166; log 9):
`linked`, after the other port last entered UP; `reloads`, how many lkcf of the frame's own port have been taken since. -/
structure Begun where
  linked : Bool := true
  reloads : Nat := 0
  deriving DecidableEq, Repr

/-- Bytes that arrive on a port in one frame, and when that frame's reception began, which matters where no row has told
of the frame before (R161, R166; log 9). -/
structure Arrival where
  bytes : List Byte
  begun : Begun := {}
  deriving DecidableEq, Repr

/-- The rows of the opcode table. In a station command `src` is the source address of its cmnd frame and `tag` its
tag (R168); the other operands are the arguments R194 lists, in its order. -/
inductive Instr where
  /-- Power-on reset with the levels of the address straps and of the PTHRU strap (R13, R20, R165). -/
  | powerOnReset (straps : Byte) (pthru : Bool)
  /-- Pin reset with the levels of the straps (R13, R20, R165). -/
  | pinReset (straps : Byte) (pthru : Bool)
  | stat (src tag : Byte)
  | runa (src tag : Byte)
  | hlta (src tag : Byte)
  | clra (src tag : Byte)
  | isol (src tag onOff : Byte)
  | ldfn (src tag furnace state mode markSource : Byte) (length offset : BitVec 16) (blanking : Byte)
      (lowMass bandLow bandHigh : BitVec 32)
  | rdfn (src tag furnace : Byte)
  | ldln (src tag line furnace : Byte) (spacing timeout : BitVec 16) (stopAlert : Byte)
      (gobLow gobHigh : BitVec 16) (lowMass bandLow bandHigh : BitVec 32)
  | rdln (src tag line : Byte)
  | jobl (src tag line gobs : Byte) (weight : BitVec 16)
  | ldst (src tag stream source channel category kind target formats : Byte) (modulus factor : BitVec 32)
      (maxRate : BitVec 24) (interval hold : BitVec 16) (sensitive : Byte)
  | rdst (src tag stream : Byte)
  | sten (src tag stream onOff : Byte)
  | lstn (src tag : Byte)
  | clos (src tag group : Byte)
  | snap (src tag group : Byte)
  | rdsn (src tag piece : Byte)
  | take (src tag piece group : Byte) (period : BitVec 32)
  | look (src tag piece : Byte)
  | rdtt (src tag account : Byte)
  | sett (src tag : Byte) (seconds : BitVec 32) (millis : BitVec 16)
  | adjt (src tag : Byte) (offset : BitVec 32)
  | rdtm (src tag : Byte)
  | ldat (src tag source priority mask nesting : Byte)
  | atds (src tag destination threshold : Byte)
  | peek (src tag : Byte)
  | ackn (src tag : Byte)
  | eoas (src tag source : Byte)
  | eoan (src tag : Byte)
  | rdfl (src tag : Byte)
  | clfl (src tag : Byte)
  | injf (src tag region index kind : Byte)
  | lkcf (src tag port rates threshold : Byte)
  | lkst (src tag port clear : Byte)
  /-- A command whose code names no command of the Command Index (R171). -/
  | unknownCommand (src tag code : Byte) (args : List Byte)
  | answerEvent
  /-- The end of an accepted cmnd frame on a port (R160, R168). -/
  | cmndReceived (port : Side) (dest src : Byte) (payload : Arrival)
  /-- The end of an accepted smpl frame on the field port (R160, R29). -/
  | smplReceived (dest src : Byte) (payload : Arrival)
  /-- The end of an accepted helo frame on the field port (R160, R29). -/
  | heloReceived (dest src : Byte) (payload : Arrival)
  /-- The end of an accepted mark frame on a port (R160, R105). -/
  | markReceived (port : Side) (dest src : Byte) (payload : Arrival)
  /-- The end of an accepted frame that the tap hands to no block (R160). -/
  | frameForwardOnly (port : Side) (dest src kind : Byte) (payload : Arrival)
  /-- The end of a frame of these bytes, as received, check included; `aborted` says whether its sender ended it with
  an abort mark (R159). -/
  | badFrame (port : Side) (bytes : List Byte) (aborted : Bool)
  | selectTimerExpiry (stream : Fin 48)
  | staleTimerExpiry (stream : Fin 48)
  | intervalTimerExpiry (stream : Fin 48)
  | holdTimerExpiry (stream : Fin 48)
  | inputPinChange (pin : Pin) (high : Bool)
  | cutEdge (line : Fin 8)
  | rejEdge (line : Fin 8)
  | divLevelChange (line : Fin 8)
  | reversal (furnace : Fin 4)
  | endOfBlanking (furnace : Fin 4)
  | stopTimerExpiry (line : Fin 8)
  | secondMark
  | boundaryEvent (group : Fin 4)
  | plantSecondsWrap
  | closeCompletion (group : Fin 4)
  | offerBurstSend (port : Side)
  | linkSignalSeen (port : Side) (signal : LinkSignal)
  | offerBurstReceived (port : Side) (rates : RateSet)
  | idleDetection (port : Side) (seen : IdleSeen)
  | linkSignalLoss (port : Side)
  | partnerRestart (port : Side) (rates : RateSet)
  /-- The transmitter of `port` arbitrates; `arrived` holds the bytes so far of the frame in reception on the other
  port, none when no frame is in reception there (R161, R163; log 9). -/
  | transmitStart (port : Side) (arrived : Arrival)
  | frameSent (port : Side)
  /-- A byte of the frame in reception on `port`, whose bytes so far are `arrived`, finds the buffer full (R162). -/
  | forwardOverrun (port : Side) (arrived : Arrival)
  /-- The other port's transmitter has sent every byte of a frame that `port` is still receiving (R162). -/
  | forwardUnderrun (port : Side)
  | fallingEdge (pin : EdgePin)
  deriving DecidableEq, Repr

end Sys2Proof
end

