-- ==== Sys2Proof/Config.lean ====
section
/-! DEFINITION. What the manual leaves open as a value, and the fixed times of the manual. -/

namespace Sys2Proof

/-- FREE VALUE (log 8): one value for each draw; nothing is known of it. It stands for how many bytes of a frame in
transmission have left the forwarding buffer, which the manual fixes only below the millisecond (R161). -/
opaque Config.freeNat : Nat → Nat

/-- R33: the select timer runs for 2000 ms. -/
abbrev Config.selectMs : Nat := 2000
/-- R75: hold time of CUT, REJ and DIV, 1 ms. -/
abbrev Config.pinHold : Nat := 1
/-- R75: hold time of REV, 100 ms. -/
abbrev Config.revHold : Nat := 100
/-- R82: the reject spacing, 5 ms. -/
abbrev Config.rejectSpacing : Nat := 5
/-- R172: the answer event follows the take event within 2 ms. -/
abbrev Config.answerMs : Nat := 2
/-- R110: the completion event follows the swap within 20 ms. -/
abbrev Config.closeMs : Nat := 20
/-- R155: a forwarding buffer holds 0 to 2048 bytes. -/
abbrev Config.bufferBytes : Nat := 2048
/-- R132: the record queue holds at most 32 records. -/
abbrev Config.queueRecords : Nat := 32
/-- R133: QFUL holds from 24 records on. -/
abbrev Config.qfulRecords : Nat := 24

end Sys2Proof
end

