-- ==== Sys2Proof/Machine/Codec.lean ====
section
/-! DEFINITION. Bytes on the wire: field encodings (R191), the frame and its check (R189), the acceptance test of a
received frame (R159), and the splitting of command arguments into fields (R194). -/

namespace Sys2Proof.Machine

/-- A field of `n` bytes, most significant byte first (12); the low `8 * n` bits of the value. -/
def be : Nat → Nat → List Byte
  | 0, _ => []
  | n + 1, x => BitVec.ofNat 8 (x / 256 ^ n) :: be n x

/-- The value of a field sent most significant byte first. -/
def beNat (l : List Byte) : Nat := l.foldl (fun a b => a * 256 + b.toNat) 0

/-- A signed field of `n` bytes, two's complement (12). -/
def beInt (n : Nat) (x : Int) : List Byte := be n (x % (256 ^ n : Nat)).toNat

/-- The value of a two's complement field of 32 bits, the adjt offset (R191). -/
def signed32 (x : Nat) : Int := if x < 2147483648 then (x : Int) else (x : Int) - 4294967296

/-- One byte for no/yes, off/on, clear/set (R191). -/
def flagByte (b : Bool) : List Byte := [if b then 1#8 else 0#8]

/-- An item that may be absent: a presence byte, then the item (R191). -/
def optBytes {α : Type} (f : α → List Byte) : Option α → List Byte
  | none => [0#8]
  | some x => 1#8 :: f x

/-- A list: a count byte, then the items (R191). -/
def listBytes {α : Type} (f : α → List Byte) (l : List α) : List Byte := be 1 l.length ++ l.flatMap f

/-- A set as a bit mask: bit `i` is `member i` (R191). -/
def maskNat : List Bool → Nat
  | [] => 0
  | b :: bs => (if b then 1 else 0) + 2 * maskNat bs

/-- One bit through the check register (R189). -/
def crcBit (c : BitVec 16) (b : Bool) : BitVec 16 :=
  if c.msb != b then (c <<< 1) ^^^ 0x1021#16 else c <<< 1

/-- One byte through the check register, most significant bit first (R189). -/
def crcByte (c : BitVec 16) (b : Byte) : BitVec 16 :=
  [7, 6, 5, 4, 3, 2, 1, 0].foldl (fun c i => crcBit c (b.getLsbD i)) c

/-- The check of a run of bytes (R189): CRC-16, polynomial 1021h, register FFFFh at the start, no final inversion. -/
def crc16 (l : List Byte) : BitVec 16 := l.foldl crcByte 0xFFFF#16

/-- A frame by its fields (12): destination, source, kind code and payload. -/
structure Frame where
  dest : Byte
  src : Byte
  kind : Byte
  payload : List Byte
  deriving DecidableEq, Repr

/-- The bytes of a frame from its destination through its payload. -/
def Frame.body (f : Frame) : List Byte :=
  [f.dest, f.src, f.kind] ++ be 2 f.payload.length ++ f.payload

/-- The bytes of a frame from its destination through its check (12, R189). -/
def Frame.bytes (f : Frame) : List Byte := f.body ++ be 2 (crc16 f.body).toNat

/-- The frame that received bytes spell, if they pass R159: the payload length is 0 to 248, the frame holds exactly
that many payload bytes, and the check matches. -/
def acceptBytes (l : List Byte) : Option Frame :=
  match l with
  | d :: s :: k :: h :: o :: rest =>
    let n := beNat [h, o]
    if n ≤ 248 ∧ rest.length = n + 2 ∧ rest.drop n = be 2 (crc16 (l.take (n + 5))).toNat then
      some ⟨d, s, k, rest.take n⟩
    else none
  | _ => none

/-- Kind codes (12, "Kinds and payloads"). -/
abbrev kindSmpl : Byte := 1#8
abbrev kindHelo : Byte := 2#8
abbrev kindSlct : Byte := 3#8
abbrev kindMark : Byte := 4#8
abbrev kindCmnd : Byte := 5#8
abbrev kindAnsr : Byte := 6#8
abbrev kindAlrt : Byte := 7#8

/-- The widths of a command's arguments, in order, against the argument bytes: the fields' values, or none where the
length does not suit (R171 step 2, R194). -/
def fields : List Nat → List Byte → Option (List Nat)
  | [], [] => some []
  | [], _ :: _ => none
  | w :: ws, bs => if w ≤ bs.length then (fields ws (bs.drop w)).map (beNat (bs.take w) :: ·) else none

/-- The argument bytes of fields given as (width, value) pairs (R194). -/
def packFields : List (Nat × Nat) → List Byte
  | [] => []
  | (w, v) :: rest => be w v ++ packFields rest

/-- The codes of the Command Index (R194). -/
def commandCodes : List Nat :=
  [0x01, 0x02, 0x03, 0x04, 0x05, 0x10, 0x11, 0x12, 0x13, 0x14, 0x20, 0x21, 0x22, 0x23, 0x30, 0x31, 0x32, 0x33, 0x34,
   0x35, 0x40, 0x41, 0x42, 0x50, 0x51, 0x52, 0x53, 0x54, 0x55, 0x60, 0x61, 0x62, 0x70, 0x71]

end Sys2Proof.Machine
end

