-- ==== Sys2Proof/Machine/State.lean ====
section
/-! DEFINITION. The state of the part as plain data, block by block, and its values after reset. -/

namespace Sys2Proof.Machine

/-- Run states of the part (R14). -/
inductive RunState where
  | pass
  | idle
  | run
  | halt
  deriving DecidableEq, Repr

/-- Energy kinds (02, The stream table). -/
inductive Kind where
  | gas
  | oil
  | elec
  | oxy
  | aux
  deriving DecidableEq, Repr

/-- What a stream measures (02, The stream table). -/
inductive Category where
  | energy
  | credit
  | charge
  | cullet
  | gobw
  deriving DecidableEq, Repr

/-- Sample formats (12). -/
inductive Format where
  | total32
  | step
  | total16
  | value
  deriving DecidableEq, Repr

/-- A set of formats (R191, set bits 0 to 3). -/
structure FormatSet where
  total32 : Bool
  step : Bool
  total16 : Bool
  value : Bool
  deriving DecidableEq, Repr

/-- Stream states (02). -/
inductive StreamState where
  | off
  | wait
  | select
  | live
  | stale
  | lost
  deriving DecidableEq, Repr

/-- Close modes of a furnace (R2). -/
inductive CloseMode where
  | marked
  | timed
  | both
  deriving DecidableEq, Repr

/-- Causes of a swap (R108). -/
inductive Cause where
  | mark
  | command
  | timed
  | deferred
  deriving DecidableEq, Repr

/-- Answer statuses (R174). -/
inductive Status where
  | done
  | busy
  | badarg
  | state
  | unknown
  | full
  | empty
  | none
  deriving DecidableEq, Repr

/-- Attention sources, in tie order (11). -/
inductive Source where
  | falt
  | strm
  | lstp
  | rato
  | pcls
  | qful
  | hear
  deriving DecidableEq, Repr

/-- Causes of STRM (11). -/
inductive StreamCause where
  | stale
  | lost
  | jump
  | format
  | fault
  deriving DecidableEq, Repr

/-- Link states of a port (R155). -/
inductive LinkState where
  | down
  | offer
  | up
  deriving DecidableEq, Repr

/-- Start thresholds of a forwarding buffer (R155). -/
inductive Threshold where
  | b16
  | b64
  | b256
  | whole
  deriving DecidableEq, Repr

/-- An account: a furnace or a line (01). -/
inductive Account where
  | furnace (f : Fin 4)
  | line (l : Fin 8)
  deriving DecidableEq, Repr

/-- Items of protected storage, by region and index (R144). -/
inductive Item where
  | stream (k : Fin 48)
  | config (a : Account)
  | live (a : Account)
  | closing (a : Account)
  | queue (i : Nat)
  deriving DecidableEq, Repr

/-- A set of streams (held-stream sets, R11). -/
abbrev HeldSet := Vector Bool 48

/-- An instant as labels carry it: plant time with its time-set flag, and elapsed base (R101). -/
structure Stamp where
  sec : Nat := 0
  ms : Nat := 0
  timeSet : Bool := false
  elapsed : Nat := 0
  deriving DecidableEq, Repr

/-- Furnace configuration, values after reset as defaults (R2, furnace configuration table). -/
structure FurnaceConfig where
  defined : Bool := false
  mode : CloseMode := .marked
  markSource : Nat := 0
  length : Nat := 480
  offset : Nat := 360
  blanking : Nat := 0
  lowMass : Nat := 0
  bandLow : Nat := 0
  bandHigh : Nat := cap32
  deriving DecidableEq, Repr

/-- Line configuration, values after reset as defaults (R5, line configuration table). -/
structure LineConfig where
  furnace : Option (Fin 4) := none
  spacing : Nat := 100
  timeout : Nat := 60
  stopAlert : Bool := false
  gobLow : Nat := 1
  gobHigh : Nat := 65535
  lowMass : Nat := 0
  bandLow : Nat := 0
  bandHigh : Nat := cap32
  deriving DecidableEq, Repr

/-- Line job data (01, Line job data; R20). -/
structure Job where
  gobs : Nat := 1
  weight : Nat := 1
  deriving DecidableEq, Repr

/-- The five energy accumulators of a live set (R9). -/
structure Energy where
  gas : Nat := 0
  oil : Nat := 0
  elec : Nat := 0
  oxy : Nat := 0
  aux : Nat := 0
  deriving DecidableEq, Repr

/-- Flags of a live set (R11). -/
structure LiveFlags where
  sat : Bool := false
  suspect : Bool := false
  timeAdjusted : Bool := false
  deriving DecidableEq, Repr

/-- The fields that furnace and line live sets share (01, Live sets). -/
structure LiveBase where
  energy : Energy := {}
  credit : Nat := 0
  estimated : Nat := 0
  correction : Int := 0
  held : HeldSet := Vector.replicate 48 false
  start : Stamp := {}
  flags : LiveFlags := {}
  deriving DecidableEq, Repr

/-- Furnace live set (01). -/
structure FurnaceLive where
  base : LiveBase := {}
  charge : Nat := 0
  cullet : Nat := 0
  reversals : Nat := 0
  lastReversal : Nat := 0
  deriving DecidableEq, Repr

/-- A mass in grams with its tenths (R9). -/
structure Mass where
  grams : Nat := 0
  tenths : Nat := 0
  deriving DecidableEq, Repr

/-- Line live set (01); `cutIntervals` is the minimum and maximum cut interval, or empty. -/
structure LineLive where
  base : LiveBase := {}
  cuts : Nat := 0
  divertedCuts : Nat := 0
  formed : Mass := {}
  diverted : Mass := {}
  rejected : Mass := {}
  rejectWare : Nat := 0
  runningSeconds : Nat := 0
  stoppedSeconds : Nat := 0
  jobChanges : Nat := 0
  weightHolds : Nat := 0
  cutIntervals : Option (Nat × Nat) := none
  deriving DecidableEq, Repr

/-- The low-mass threshold and ratio band copied at a swap (R12). -/
structure Limits where
  lowMass : Nat
  bandLow : Nat
  bandHigh : Nat
  deriving DecidableEq, Repr

/-- One line of a closing set (R12). -/
structure ClosingLine where
  line : Fin 8
  live : LineLive
  limits : Limits
  deriving DecidableEq, Repr

/-- A filled closing set (R12, R108). `stop` is the end of the period; `configFault` says that a configuration-fault
mark was taken. -/
structure ClosingSet where
  furnace : FurnaceLive
  limits : Limits
  lines : List ClosingLine
  halted : Bool
  cause : Cause
  period : Nat
  stop : Stamp
  configFault : Bool
  deriving DecidableEq, Repr

/-- What the close engine holds for one group (R103). The close state is CLOSING exactly while the closing set is
filled (R12). -/
structure GroupClose where
  closing : Option ClosingSet := none
  deferred : Bool := false
  period : Nat := 1
  deriving DecidableEq, Repr

/-- The twelve fields of a loaded stream entry (02, The stream table). -/
structure StreamEntry where
  source : Byte
  channel : Nat
  category : Category
  kind : Kind
  target : Account
  formats : FormatSet
  modulus : Nat
  factor : Nat
  maxRate : Nat
  interval : Nat
  hold : Nat
  sensitive : Bool
  deriving DecidableEq, Repr

/-- The five counts of a stream (R46). -/
structure StreamCounts where
  jumps : Nat := 0
  formatFaults : Nat := 0
  repeats : Nat := 0
  gaps : Nat := 0
  weightHolds : Nat := 0
  deriving DecidableEq, Repr

/-- Live state of a stream, OFF values as defaults (02, Stream live state). The pending estimate is a count of 1/65536
raw units; each timer holds the elapsed base at which it expires (R27). -/
structure StreamLive where
  state : StreamState := .off
  format : Option Format := none
  inferred : Bool := false
  base : Option Nat := none
  lastSeq : Option Nat := none
  lastGood : Option Nat := none
  heldRate : Nat := 0
  pending : Nat := 0
  remainder : Nat := 0
  attempts : Nat := 0
  adoptOnly : Bool := false
  deferral : Bool := false
  selectAt : Option Nat := none
  staleAt : Option Nat := none
  intervalAt : Option Nat := none
  holdAt : Option Nat := none
  counts : StreamCounts := {}
  deriving DecidableEq, Repr

/-- A loaded stream: its entry and live state (R21). -/
structure Stream where
  entry : StreamEntry
  live : StreamLive := {}
  deriving DecidableEq, Repr

/-- An entry of the heard list (02); `kind` is the kind code of the last frame. -/
structure Heard where
  source : Byte
  channel : Nat
  kind : Byte
  time : Nat
  deriving DecidableEq, Repr

/-- A tracked input's filter: the filtered level (true is HIGH) and the start of a pending change (R75). -/
structure Filter where
  level : Bool
  since : Option Nat := none
  deriving DecidableEq, Repr

/-- Which live set the last booked cut of a line landed in, seen from the current one (R79, R80): none, the current
live set, or one that has been closed. -/
inductive CutSet where
  | none
  | current
  | closed
  deriving DecidableEq, Repr

/-- Input state of a line (04, Cuts; R91). A filter is absent while its input is not tracked (R76). -/
structure LineInput where
  cut : Option Filter := none
  rej : Option Filter := none
  div : Option Filter := none
  lastCut : Option Nat := none
  lastInterval : Option Nat := none
  cutBounces : Nat := 0
  rejectBounces : Nat := 0
  lastReject : Option Nat := none
  stopAt : Option Nat := none
  running : Bool := false
  prevSet : CutSet := .none
  deriving DecidableEq, Repr

/-- Input state of a furnace (04, Reversals and blanking; R91). -/
structure FurnaceInput where
  rev : Option Filter := none
  lastReversal : Option Nat := none
  blankingEnd : Option Nat := none
  deriving DecidableEq, Repr

/-- Levels of the 28 tally pins (R75). -/
structure Pins where
  cut : Vector Bool 8 := Vector.replicate 8 false
  rej : Vector Bool 8 := Vector.replicate 8 false
  div : Vector Bool 8 := Vector.replicate 8 false
  rev : Vector Bool 4 := Vector.replicate 4 false
  deriving DecidableEq, Repr

/-- The plant clock (05). `secondDue` and `wrapDue` say that the second mark or the wrap of the present millisecond has
not been taken yet (log 19). -/
structure Clock where
  sec : Nat := 0
  ms : Nat := 0
  timeSet : Bool := false
  elapsed : Nat := 0
  boundary : Vector (Option Nat) 4 := Vector.replicate 4 none
  secondDue : Bool := false
  wrapDue : Bool := false
  deriving DecidableEq, Repr

/-- A ratio item (R131). NO-MASS is set exactly when the value is absent. -/
structure RatioItem where
  value : Option Nat
  lowMass : Bool := false
  sat : Bool := false
  rejOverForm : Bool := false
  deriving DecidableEq, Repr

/-- Record flags (R122). -/
structure RecordFlags where
  timeAdjusted : Bool := false
  overwrote : Bool := false
  sat : Bool := false
  negnet : Bool := false
  suspect : Bool := false
  halted : Bool := false
  deriving DecidableEq, Repr

/-- The furnace part of a group record (R129). The kinds list is the nonzero accumulators of `energy`. -/
structure FurnacePart where
  energy : Energy
  credit : Nat
  estimated : Nat
  correction : Int
  net : Nat
  charge : Nat
  cullet : Nat
  pulled : Nat
  unallotted : Option Nat
  perMille : Option Nat
  reversals : Nat
  lastReversal : Nat
  melt : RatioItem
  held : HeldSet
  deriving DecidableEq, Repr

/-- A line entry of a group record (R130). -/
structure LineEntry where
  line : Fin 8
  energy : Energy
  credit : Nat
  estimated : Nat
  correction : Int
  net : Nat
  share : Nat
  total : Nat
  cuts : Nat
  divertedCuts : Nat
  pulled : Nat
  diverted : Nat
  formed : Nat
  rejected : Nat
  packed : Nat
  rejectWare : Nat
  runningSeconds : Nat
  stoppedSeconds : Nat
  jobChanges : Nat
  weightHolds : Nat
  cutIntervals : Option (Nat × Nat)
  pull : RatioItem
  pack : RatioItem
  held : HeldSet
  deriving DecidableEq, Repr

/-- A group record (R128). The piece count is one more than the number of line entries. -/
structure GroupRecord where
  group : Fin 4
  period : Nat
  start : Stamp
  stop : Stamp
  duration : Nat
  cause : Cause
  flags : RecordFlags
  furnace : FurnacePart
  lines : List LineEntry
  ratio : RatioItem
  deriving DecidableEq, Repr

/-- Running totals of a furnace (R137). -/
structure FurnaceTotals where
  net : Nat := 0
  unallotted : Nat := 0
  credit : Nat := 0
  estimated : Nat := 0
  charge : Nat := 0
  cullet : Nat := 0
  pulled : Nat := 0
  closes : Nat := 0
  sat : Bool := false
  deriving DecidableEq, Repr

/-- Running totals of a line (R137). -/
structure LineTotals where
  net : Nat := 0
  share : Nat := 0
  total : Nat := 0
  pulled : Nat := 0
  formed : Nat := 0
  diverted : Nat := 0
  rejected : Nat := 0
  packed : Nat := 0
  cuts : Nat := 0
  closes : Nat := 0
  sat : Bool := false
  deriving DecidableEq, Repr

/-- A line piece of a snapshot (R142). -/
structure SnapLine where
  line : Fin 8
  live : LineLive
  running : Bool
  lastInterval : Option Nat
  cutBounces : Nat
  rejectBounces : Nat
  job : Job
  deriving DecidableEq, Repr

/-- A valid snapshot (07, The snapshot buffer). -/
structure Snapshot where
  group : Fin 4
  period : Nat
  closing : Bool
  time : Stamp
  furnace : FurnaceLive
  lines : List SnapLine
  deriving DecidableEq, Repr

/-- A slot of the fault record (R146). -/
structure FaultSlot where
  item : Item
  time : Nat
  deriving DecidableEq, Repr

/-- An armed injection: SINGLE, or DOUBLE where `double` is set (R153). A QUEUE injection holds the present position
of its record (R153, log 34). -/
structure Injection where
  item : Item
  double : Bool
  deriving DecidableEq, Repr

/-- The check unit (08). -/
structure CheckUnit where
  first : Option FaultSlot := none
  latest : Option FaultSlot := none
  uncorrectable : Nat := 0
  corrected : Nat := 0
  armed : Option Injection := none
  furnaceMarks : Vector Bool 4 := Vector.replicate 4 false
  lineMarks : Vector Bool 8 := Vector.replicate 8 false
  deriving DecidableEq, Repr

/-- The STRM causes gathered for one stream (R179). -/
structure StreamCauses where
  stale : Bool := false
  lost : Bool := false
  jump : Bool := false
  format : Bool := false
  fault : Bool := false
  deriving DecidableEq, Repr

/-- The attention unit (11); vectors over the seven sources in tie order. -/
structure Attention where
  priority : Vector Nat 7 := Vector.replicate 7 7
  masked : Vector Bool 7 := Vector.replicate 7 true
  nesting : Vector Bool 7 := Vector.replicate 7 false
  threshold : Nat := 7
  destination : Byte := 0#8
  pending : Vector Bool 7 := Vector.replicate 7 false
  inService : Vector Bool 7 := Vector.replicate 7 false
  strm : Vector StreamCauses 48 := Vector.replicate 48 {}
  ratoFurnaces : Vector Bool 4 := Vector.replicate 4 false
  ratoLines : Vector Bool 8 := Vector.replicate 8 false
  pcls : Vector Bool 4 := Vector.replicate 4 false
  lastAlerted : Option Source := none
  deriving DecidableEq, Repr

/-- A frame in a forwarding buffer (R161): the bytes received so far, whether its end has arrived, whether it was
accepted then, and the start threshold it began with (R166). -/
structure Stored where
  bytes : List Byte
  whole : Bool
  good : Bool
  threshold : Threshold
  deriving DecidableEq, Repr

/-- A frame in transmission (R163): the head of the other port's buffer, or a frame of the port's own. -/
inductive Transmission where
  | forwarded
  | own (bytes : List Byte)
  deriving DecidableEq, Repr

/-- What a port's transmitter last put on its line (log 26). -/
inductive LineOut where
  | silent
  | burst (rates : RateSet)
  | idle (rate : Rate)
  | frame (bytes : List Byte)
  | abort
  deriving DecidableEq, Repr

/-- A link port (R155). `rx` is the frame in reception, true while its bytes are stored; `reserved` counts reserved
slots of the local queue (plant port, R164); `past` lists the start thresholds that taken lkcf have replaced, newest
first, one of which a frame in reception may have begun with (R166; log 9). -/
structure Port where
  link : LinkState := .down
  rate : Option Rate := none
  rateFault : Bool := false
  accepted : RateSet := ⟨true, true⟩
  threshold : Threshold := .whole
  buffer : List Stored := []
  localQueue : List Frame := []
  reserved : Nat := 0
  forwarded : Nat := 0
  aborted : Nat := 0
  badCheck : Nat := 0
  tx : Option Transmission := none
  rx : Option Bool := none
  line : LineOut := .silent
  burstAt : Nat := 0
  past : List Threshold := []
  deriving DecidableEq, Repr

/-- A command in the command queue, as received (R168). -/
structure Command where
  source : Byte
  code : Byte
  tag : Byte
  args : List Byte
  deriving DecidableEq, Repr

/-- The status and results of an answer (R172). -/
structure Reply where
  status : Status
  results : List Byte := []
  deriving DecidableEq, Repr

/-- The command in execution with the answer fixed at its take event; `due` is the end of its 2 ms (R172). -/
structure InExecution where
  command : Command
  reply : Reply
  due : Nat
  deriving DecidableEq, Repr

/-- The whole state of the part. `pending` is the interface's queue of waiting commands, `fresh` the counter of free
values and `latent` the errors that stored items hold; the other fields are the blocks of the manual. -/
structure State where
  pending : List Instr := []
  fresh : Nat := 0
  latent : List (Item × Nat) := []
  pins : Pins := {}
  address : Byte := 254#8
  pthru : Bool := false
  run : RunState := .idle
  commands : List Command := []
  executing : Option InExecution := none
  clock : Clock := {}
  furnaces : Vector FurnaceConfig 4 := Vector.replicate 4 {}
  lines : Vector LineConfig 8 := Vector.replicate 8 {}
  jobs : Vector Job 8 := Vector.replicate 8 {}
  furnaceLive : Vector FurnaceLive 4 := Vector.replicate 4 {}
  lineLive : Vector LineLive 8 := Vector.replicate 8 {}
  groups : Vector GroupClose 4 := Vector.replicate 4 {}
  streams : Vector (Option Stream) 48 := Vector.replicate 48 none
  heard : List Heard := []
  lineInputs : Vector LineInput 8 := Vector.replicate 8 {}
  furnaceInputs : Vector FurnaceInput 4 := Vector.replicate 4 {}
  records : List GroupRecord := []
  lost : Nat := 0
  furnaceTotals : Vector FurnaceTotals 4 := Vector.replicate 4 {}
  lineTotals : Vector LineTotals 8 := Vector.replicate 8 {}
  snapshot : Option Snapshot := none
  check : CheckUnit := {}
  attention : Attention := {}
  field : Port := {}
  plant : Port := {}
  deriving DecidableEq, Repr

/-- Reasons the part could stop. There are none: the manual gives an effect to every event of the table (INVENTORY,
Faults; log 25). -/
inductive Fault where
  deriving DecidableEq, Repr

/-- Reasons a command has no meaning in the model. -/
inductive Refusal where
  /-- The row of this mnemonic has no meaning yet; raised by `exec`'s arm alone. Safe: the machine goes on, the model
  stops. -/
  | notModelled (mnemonic : String)
  deriving DecidableEq, Repr

/-- The part right after a power-on reset with the strap levels of log 5 (R20, R28, R91, R102, R103, R132, R138, R140,
R155, R176, R188 and the tables of 01 to 11): the defaults of `State`. -/
def State.reset : State := {}

end Sys2Proof.Machine
end

