-- ==== Sys2Proof/Machine/Flags.lean ====
section
/-! DEFINITION. Saturating arithmetic with its SAT flags (R9, R60, R137), masses with tenths (R9), and the ratio items
of a close with their flags (R118, R131). -/

namespace Sys2Proof.Machine

/-- An addition to an accumulator that stays at `cap` when it would pass it (R9). -/
def satAdd (cap x w : Nat) : Nat := if x + w > cap then cap else x + w

/-- Whether the addition of `satAdd` saturates. -/
def satOver (cap x w : Nat) : Bool := decide (x + w > cap)

/-- A 32-bit count incremented, staying at its limit without a flag (R9, R46). -/
def bump (x : Nat) : Nat := satAdd cap32 x 1

/-- The bounds of the correction accumulator (R9). -/
abbrev corrLow : Int := -140737488355328
abbrev corrHigh : Int := 140737488355327

/-- A value held between the bounds of the correction accumulator (R9). -/
def corrClamp (x : Int) : Int := if x < corrLow then corrLow else if x > corrHigh then corrHigh else x

/-- Whether a value lies past a bound of the correction accumulator. -/
def corrOver (x : Int) : Bool := decide (x < corrLow ∨ x > corrHigh)

/-- The accumulator of a kind. -/
def Energy.get (e : Energy) : Kind → Nat
  | .gas => e.gas
  | .oil => e.oil
  | .elec => e.elec
  | .oxy => e.oxy
  | .aux => e.aux

/-- The accumulator of a kind replaced. -/
def Energy.put (e : Energy) (k : Kind) (x : Nat) : Energy :=
  match k with
  | .gas => { e with gas := x }
  | .oil => { e with oil := x }
  | .elec => { e with elec := x }
  | .oxy => { e with oxy := x }
  | .aux => { e with aux := x }

/-- The exact sum of the kinds (R111 step 1). -/
def Energy.sum (e : Energy) : Nat := e.gas + e.oil + e.elec + e.oxy + e.aux

/-- SAT set where an addition saturated; a flag once set stays set (R11). -/
def LiveFlags.saturated (f : LiveFlags) (ov : Bool) : LiveFlags := { f with sat := f.sat || ov }

/-- `w` added to the accumulator of kind `k` (R58, R60). -/
def LiveBase.addEnergy (b : LiveBase) (k : Kind) (w : Nat) : LiveBase :=
  { b with
    energy := b.energy.put k (satAdd cap48 (b.energy.get k) w)
    flags := b.flags.saturated (satOver cap48 (b.energy.get k) w) }

/-- `w` added to the credit (R58, R60). -/
def LiveBase.addCredit (b : LiveBase) (w : Nat) : LiveBase :=
  { b with credit := satAdd cap48 b.credit w, flags := b.flags.saturated (satOver cap48 b.credit w) }

/-- `w` added to the estimated tally (R60, R64). -/
def LiveBase.addEstimated (b : LiveBase) (w : Nat) : LiveBase :=
  { b with estimated := satAdd cap48 b.estimated w, flags := b.flags.saturated (satOver cap48 b.estimated w) }

/-- A signed amount added to the correction (R67, R9). -/
def LiveBase.addCorrection (b : LiveBase) (k : Int) : LiveBase :=
  { b with
    correction := corrClamp (b.correction + k)
    flags := b.flags.saturated (corrOver (b.correction + k)) }

/-- A stream's number added to the held-stream set (R45). -/
def LiveBase.hold (b : LiveBase) (k : Fin 48) : LiveBase := { b with held := vset b.held k true }

/-- A mass after an addition of `t` tenths: whole grams to the gram accumulator, 0 to 9 tenths kept (R9). -/
def Mass.add (m : Mass) (t : Nat) : Mass :=
  { grams := satAdd cap48 m.grams ((m.tenths + t) / 10), tenths := (m.tenths + t) % 10 }

/-- Whether the gram accumulator saturates in `Mass.add`. -/
def Mass.overflows (m : Mass) (t : Nat) : Bool := satOver cap48 m.grams ((m.tenths + t) / 10)

/-- The exact rounded ratio of R118, in kJ/t, for a mass greater than 0. -/
def ratioExact (energy mass : Nat) : Nat := (2 * energy * 1000000 + mass) / (2 * mass)

/-- A ratio item (R118, R131): absent without mass; LOW-MASS below the threshold; SAT where the value is given as
4,294,967,295 kJ/t. DEDUCED: so also where the exact ratio is that value, of which R131 speaks and R118 does not
(log 41). -/
def ratioItem (energy mass lowMass : Nat) (rejOverForm : Bool) : RatioItem :=
  if mass = 0 then { value := none, rejOverForm := rejOverForm }
  else
    { value := some (if ratioExact energy mass > cap32 then cap32 else ratioExact energy mass)
      lowMass := decide (mass < lowMass)
      sat := decide (cap32 ≤ ratioExact energy mass)
      rejOverForm := rejOverForm }

/-- Whether a present ratio lies outside its band (R121). -/
def RatioItem.outOfBand (r : RatioItem) (m : Limits) : Bool :=
  match r.value with
  | none => false
  | some v => decide (v < m.bandLow ∨ v > m.bandHigh)

end Sys2Proof.Machine
end

