-- ==== Sys2Proof/Machine/Ops.lean ====
section
/-! DEFINITION. The named operations on State: reading and replacing the parts of each block, the local queues of the
ports, and the enumerations' codes (R191). -/

namespace Sys2Proof.Machine

/-! ### Reading and replacing -/

def State.furnaceCfg (s : State) (f : Fin 4) : FurnaceConfig := vget s.furnaces f
def State.setFurnaceCfg (s : State) (f : Fin 4) (x : FurnaceConfig) : State :=
  { s with furnaces := vset s.furnaces f x }

def State.lineCfg (s : State) (l : Fin 8) : LineConfig := vget s.lines l
def State.setLineCfg (s : State) (l : Fin 8) (x : LineConfig) : State := { s with lines := vset s.lines l x }

def State.job (s : State) (l : Fin 8) : Job := vget s.jobs l
def State.setJob (s : State) (l : Fin 8) (x : Job) : State := { s with jobs := vset s.jobs l x }

def State.fLive (s : State) (f : Fin 4) : FurnaceLive := vget s.furnaceLive f
def State.setFLive (s : State) (f : Fin 4) (x : FurnaceLive) : State :=
  { s with furnaceLive := vset s.furnaceLive f x }

def State.lLive (s : State) (l : Fin 8) : LineLive := vget s.lineLive l
def State.setLLive (s : State) (l : Fin 8) (x : LineLive) : State := { s with lineLive := vset s.lineLive l x }

def State.group (s : State) (g : Fin 4) : GroupClose := vget s.groups g
def State.setGroup (s : State) (g : Fin 4) (x : GroupClose) : State := { s with groups := vset s.groups g x }

def State.stream (s : State) (k : Fin 48) : Option Stream := vget s.streams k
def State.setStream (s : State) (k : Fin 48) (x : Option Stream) : State := { s with streams := vset s.streams k x }

/-- The live state of a loaded stream replaced. -/
def State.setStreamLive (s : State) (k : Fin 48) (st : Stream) (x : StreamLive) : State :=
  s.setStream k (some { st with live := x })

def State.lineInput (s : State) (l : Fin 8) : LineInput := vget s.lineInputs l
def State.setLineInput (s : State) (l : Fin 8) (x : LineInput) : State :=
  { s with lineInputs := vset s.lineInputs l x }

def State.furnaceInput (s : State) (f : Fin 4) : FurnaceInput := vget s.furnaceInputs f
def State.setFurnaceInput (s : State) (f : Fin 4) (x : FurnaceInput) : State :=
  { s with furnaceInputs := vset s.furnaceInputs f x }

def State.port (s : State) : Side → Port
  | .field => s.field
  | .plant => s.plant
def State.setPort (s : State) (p : Side) (x : Port) : State :=
  match p with
  | .field => { s with field := x }
  | .plant => { s with plant := x }

/-- The shared part of an account's live set. -/
def State.liveBase (s : State) : Account → LiveBase
  | .furnace f => (s.fLive f).base
  | .line l => (s.lLive l).base

/-- The shared part of an account's live set replaced. -/
def State.setLiveBase (s : State) (a : Account) (b : LiveBase) : State :=
  match a with
  | .furnace f => s.setFLive f { s.fLive f with base := b }
  | .line l => s.setLLive l { s.lLive l with base := b }

/-! ### Groups and the clock -/

/-- The lines of group `f`, in ascending line number (R1). -/
def State.linesOf (s : State) (f : Fin 4) : List (Fin 8) :=
  (List.finRange 8).filter fun l => decide ((s.lineCfg l).furnace = some f)

/-- A line is assigned: it is not UNUSED (R1). -/
def State.assigned (s : State) (l : Fin 8) : Bool := (s.lineCfg l).furnace.isSome

/-- The close state of a group is CLOSING (R103). -/
def State.isClosing (s : State) (g : Fin 4) : Bool := (s.group g).closing.isSome

/-- The label of the present instant: plant time, time-set flag and elapsed base (R101). -/
def State.stamp (s : State) : Stamp :=
  { sec := s.clock.sec, ms := s.clock.ms, timeSet := s.clock.timeSet, elapsed := s.clock.elapsed }

/-- The elapsed base (R94). -/
def State.now (s : State) : Nat := s.clock.elapsed

/-- A timer is due: it runs, and the elapsed base has reached its expiry time (R94). -/
def due (t : Option Nat) (now : Nat) : Bool :=
  match t with
  | none => false
  | some x => decide (x ≤ now)

/-- The furnace is in blanking (R90). -/
def State.inBlanking (s : State) (f : Fin 4) : Bool := (s.furnaceInput f).blankingEnd.isSome

/-- The account is in use: a DEFINED furnace, or a line that is not UNUSED (R22). -/
def State.accountInUse (s : State) : Account → Bool
  | .furnace f => (s.furnaceCfg f).defined
  | .line l => s.assigned l

/-! ### Local queues -/

/-- How many frames a port's local queue holds (R164). -/
def localCap : Side → Nat
  | .field => 4
  | .plant => 6

/-- Frames and reserved slots of a port's local queue together (R164). -/
def Port.slots (p : Port) : Nat := p.localQueue.length + p.reserved

/-- A frame placed in a port's local queue as the newest. It is lost where the port is not UP or the queue has no free
slot (R164, R169, R31, R181). -/
def State.pushLocal (s : State) (p : Side) (f : Frame) : State :=
  if (s.port p).link = .up ∧ (s.port p).slots < localCap p then
    s.setPort p { s.port p with localQueue := (s.port p).localQueue ++ [f] }
  else s

/-! ### Codes of enumerations (R191) and index helpers -/

/-- A field value as an index below `n`, where it is one. -/
def fin? (n x : Nat) : Option (Fin n) := if h : x < n then some ⟨x, h⟩ else none

/-- An account's number: 0 to 3 for F0 to F3, 4 to 11 for L0 to L7 (R191). -/
def Account.number : Account → Nat
  | .furnace f => f.val
  | .line l => l.val + 4

/-- The account of a number 0 to 11. -/
def account? (x : Nat) : Option Account :=
  if h : x < 4 then some (.furnace ⟨x, h⟩)
  else if h : x - 4 < 8 then some (.line ⟨x - 4, h⟩)
  else none

def Status.code : Status → Nat
  | .done => 0 | .busy => 1 | .badarg => 2 | .state => 3 | .unknown => 4 | .full => 5 | .empty => 6 | .none => 7

/-- The tie order of the attention sources (11). -/
def Source.all : List Source := [.falt, .strm, .lstp, .rato, .pcls, .qful, .hear]

/-- A source's code, and its place in the tie order. -/
def Source.code : Source → Fin 7
  | .falt => 0 | .strm => 1 | .lstp => 2 | .rato => 3 | .pcls => 4 | .qful => 5 | .hear => 6

/-- The source of a code, where it is one. -/
def source? : Nat → Option Source
  | 0 => some .falt | 1 => some .strm | 2 => some .lstp | 3 => some .rato | 4 => some .pcls | 5 => some .qful
  | 6 => some .hear | _ => none

def Category.code : Category → Nat
  | .energy => 0 | .credit => 1 | .charge => 2 | .cullet => 3 | .gobw => 4
def category? : Nat → Option Category
  | 0 => some .energy | 1 => some .credit | 2 => some .charge | 3 => some .cullet | 4 => some .gobw | _ => none

def Kind.code : Kind → Nat
  | .gas => 0 | .oil => 1 | .elec => 2 | .oxy => 3 | .aux => 4
def kind? : Nat → Option Kind
  | 0 => some .gas | 1 => some .oil | 2 => some .elec | 3 => some .oxy | 4 => some .aux | _ => none
def Kind.all : List Kind := [.gas, .oil, .elec, .oxy, .aux]

def StreamState.code : StreamState → Nat
  | .off => 0 | .wait => 1 | .select => 2 | .live => 3 | .stale => 4 | .lost => 5

def RunState.code : RunState → Nat
  | .pass => 0 | .idle => 1 | .run => 2 | .halt => 3

def CloseMode.code : CloseMode → Nat
  | .marked => 0 | .timed => 1 | .both => 2
def closeMode? : Nat → Option CloseMode
  | 0 => some .marked | 1 => some .timed | 2 => some .both | _ => none

def Cause.code : Cause → Nat
  | .mark => 0 | .command => 1 | .timed => 2 | .deferred => 3

/-- Format codes of the format table (12); 0 is the short form. -/
def Format.code : Format → Nat
  | .total32 => 1 | .step => 2 | .total16 => 3 | .value => 4
def format? : Nat → Option Format
  | 1 => some .total32 | 2 => some .step | 3 => some .total16 | 4 => some .value | _ => none

def FormatSet.has (fs : FormatSet) : Format → Bool
  | .total32 => fs.total32
  | .step => fs.step
  | .total16 => fs.total16
  | .value => fs.value

/-- The set that a format set byte names by its bits 0 to 3 (R190, R191). -/
def formatSetOf (b : Byte) : FormatSet :=
  { total32 := b.getLsbD 0, step := b.getLsbD 1, total16 := b.getLsbD 2, value := b.getLsbD 3 }
def FormatSet.mask (fs : FormatSet) : Nat := maskNat [fs.total32, fs.step, fs.total16, fs.value]

/-- no/yes, off/on, unmasked/masked (R191). -/
def bool? : Nat → Option Bool
  | 0 => some false | 1 => some true | _ => none
def bitOf (b : Bool) : Nat := if b then 1 else 0

def side? : Nat → Option Side
  | 0 => some .field | 1 => some .plant | _ => none

/-- The rate set of a byte: bit 0 A, bit 1 B; a byte with another bit names a rate that is none (R166, R191). -/
def rateSet? : Nat → Option RateSet
  | 0 => some ⟨false, false⟩ | 1 => some ⟨true, false⟩ | 2 => some ⟨false, true⟩ | 3 => some ⟨true, true⟩ | _ => none
def RateSet.mask (rs : RateSet) : Nat := maskNat [rs.a, rs.b]

def threshold? : Nat → Option Threshold
  | 0 => some .whole | 1 => some .b16 | 2 => some .b64 | 3 => some .b256 | _ => none
def Threshold.code : Threshold → Nat
  | .whole => 0 | .b16 => 1 | .b64 => 2 | .b256 => 3

/-- Link states and rates have no code in R191: DESIGN CHOICE, in the order of R155 (log 12). -/
def LinkState.code : LinkState → Nat
  | .down => 0 | .offer => 1 | .up => 2
def Rate.code : Rate → Nat
  | .a => 0 | .b => 1

/-- Region codes (R191). -/
def Item.region : Item → Nat
  | .stream _ => 0 | .config _ => 1 | .live _ => 2 | .closing _ => 3 | .queue _ => 4
/-- Index of an item within its region (R144). -/
def Item.index : Item → Nat
  | .stream k => k.val | .config a => a.number | .live a => a.number | .closing a => a.number | .queue i => i

end Sys2Proof.Machine
end

