-- ==== Sys2Proof/Machine/Attention.lean ====
section
/-! DEFINITION. The attention unit (11): raising requests, eligibility, alerts, and the attention commands. -/

namespace Sys2Proof.Machine

def Attention.isPending (a : Attention) (x : Source) : Bool := vget a.pending x.code
def Attention.isInService (a : Attention) (x : Source) : Bool := vget a.inService x.code
def Attention.prio (a : Attention) (x : Source) : Nat := vget a.priority x.code
def Attention.isMasked (a : Attention) (x : Source) : Bool := vget a.masked x.code
def Attention.nests (a : Attention) (x : Source) : Bool := vget a.nesting x.code
def Attention.setPending (a : Attention) (x : Source) (b : Bool) : Attention :=
  { a with pending := vset a.pending x.code b }
def Attention.setInService (a : Attention) (x : Source) (b : Bool) : Attention :=
  { a with inService := vset a.inService x.code b }

/-- Level sources follow a condition; the others are latched (11, table of sources). -/
def Source.isLevel : Source → Bool
  | .lstp => true
  | .qful => true
  | _ => false

/-- A latched source enters the pending set (R179). -/
def State.raise (s : State) (x : Source) : State := { s with attention := s.attention.setPending x true }

/-- A cause added to a stream's set of STRM causes (R179). -/
def StreamCauses.add (c : StreamCauses) : StreamCause → StreamCauses
  | .stale => { c with stale := true }
  | .lost => { c with lost := true }
  | .jump => { c with jump := true }
  | .format => { c with format := true }
  | .fault => { c with fault := true }

/-- STRM raised with a cause for stream `k` (R179, R46). -/
def State.raiseStream (s : State) (k : Fin 48) (c : StreamCause) : State :=
  { s with attention := { s.attention.setPending .strm true with
      strm := vset s.attention.strm k ((vget s.attention.strm k).add c) } }

/-- The LSTP condition (R87): outside PASS, an assigned line with its stop-alert flag is STOPPED. DEDUCED: it is held as
a level and uses the flags without a read of the lines' CONFIG items, as R144's list names no such read (log 36). -/
def State.lstpHolds (s : State) : Bool :=
  decide (s.run ≠ .pass) && (List.finRange 8).any fun l =>
    s.assigned l && (s.lineCfg l).stopAlert && !(s.lineInput l).running

/-- The QFUL condition (R133): 24 records or more. -/
def State.qfulHolds (s : State) : Bool := decide (Config.qfulRecords ≤ s.records.length)

/-- The level sources follow their conditions (R179). -/
def State.refreshLevels (s : State) : State :=
  { s with attention := (s.attention.setPending .lstp s.lstpHolds).setPending .qful s.qfulHolds }

/-- Every source in service other than `x` has a less urgent priority than `x` (R180). -/
def Attention.outranks (a : Attention) (x : Source) : Bool :=
  Source.all.all fun y => decide (y = x) || !a.isInService y || decide (a.prio x < a.prio y)

/-- Eligibility of a source (R180). -/
def Attention.eligible (a : Attention) (x : Source) : Bool :=
  a.isPending x && !a.isMasked x && decide (a.prio x ≤ a.threshold) && a.outranks x &&
    (!a.isInService x || (!x.isLevel && a.nests x))

/-- The most urgent of some sources, the earlier in the list where priorities are equal (R180). -/
def Attention.mostUrgent (a : Attention) : List Source → Option Source
  | [] => none
  | x :: xs =>
    match a.mostUrgent xs with
    | none => some x
    | some y => if a.prio y < a.prio x then some y else some x

/-- The highest eligible source, or none (R180). -/
def Attention.highest (a : Attention) : Option Source := a.mostUrgent (Source.all.filter a.eligible)

/-- The alrt frame that names a source (R181; payload of 12). -/
def State.alrtFrame (s : State) (x : Source) : Frame :=
  { dest := s.attention.destination, src := s.address, kind := kindAlrt
    payload := be 1 x.code.val ++ be 1 (s.attention.prio x) }

/-- The last-alerted source replaced. -/
def State.setLastAlerted (s : State) (x : Option Source) : State :=
  { s with attention := { s.attention with lastAlerted := x } }

/-- What the attention unit does after every event (R179 to R181): the level sources follow their conditions, and where
the highest eligible source differs from the last-alerted one an alrt is made, unless the destination is 0. -/
def State.attend (s : State) : State :=
  let s1 := s.refreshLevels
  match s1.attention.highest with
  | none => s1.setLastAlerted none
  | some x =>
    if s1.attention.lastAlerted = some x then s1
    else
      let s2 := s1.setLastAlerted (some x)
      if s2.attention.destination = 0#8 then s2 else s2.pushLocal .plant (s2.alrtFrame x)

/-- The values of the accounting clear in the attention unit (R188). -/
def Attention.cleared (a : Attention) : Attention :=
  { a with
    pending := Vector.replicate 7 false
    inService := Vector.replicate 7 false
    strm := Vector.replicate 48 {}
    ratoFurnaces := Vector.replicate 4 false
    ratoLines := Vector.replicate 8 false
    pcls := Vector.replicate 4 false
    lastAlerted := none }

/-- The cause set of a source emptied (R179, R185). -/
def Attention.dropCauses (a : Attention) : Source → Attention
  | .strm => { a with strm := Vector.replicate 48 {} }
  | .rato => { a with ratoFurnaces := Vector.replicate 4 false, ratoLines := Vector.replicate 8 false }
  | .pcls => { a with pcls := Vector.replicate 4 false }
  | _ => a

/-- A stream's causes as a bit set (R191). -/
def StreamCauses.mask (c : StreamCauses) : Nat := maskNat [c.stale, c.lost, c.jump, c.format, c.fault]

/-- The STRM cause map as a list of stream numbers and bit sets, ascending (R191). -/
def Attention.strmBytes (a : Attention) : List Byte :=
  listBytes (fun k : Fin 48 => be 1 k.val ++ be 1 (vget a.strm k).mask)
    ((List.finRange 48).filter fun k => decide ((vget a.strm k).mask ≠ 0))

/-- A source's cause set in a peek or ackn answer (R191). -/
def Attention.causeBytes (a : Attention) : Source → List Byte
  | .strm => a.strmBytes
  | .rato => be 2 (maskNat (a.ratoFurnaces.toList ++ a.ratoLines.toList))
  | .pcls => be 1 (maskNat a.pcls.toList)
  | _ => []

/-- The results of a peek or ackn that finds source `x`: source, priority, cause set (R184, R185). -/
def Attention.report (a : Attention) (x : Source) : List Byte :=
  be 1 x.code.val ++ be 1 (a.prio x) ++ a.causeBytes x

/-- A refused command's answer with no results. -/
def refuse (st : Status) (s : State) : Reply × State := ({ status := st }, s)

/-- A command answered DONE with results. -/
def answer (results : List Byte) (s : State) : Reply × State := ({ status := .done, results := results }, s)

/-- ldat load attention source (R182). -/
def takeLdat (args : List Byte) (s : State) : Reply × State :=
  match fields [1, 1, 1, 1] args with
  | some [src, prio, mask, nest] =>
    match source? src, bool? mask, bool? nest with
    | some x, some m, some n =>
      if prio ≤ 7 then
        if s.attention.isInService x then refuse .state s
        else answer [] { s with attention := { s.attention with
          priority := vset s.attention.priority x.code prio
          masked := vset s.attention.masked x.code m
          nesting := vset s.attention.nesting x.code n } }
      else refuse .badarg s
    | _, _, _ => refuse .badarg s
  | _ => refuse .badarg s

/-- atds attention destination (R183). -/
def takeAtds (args : List Byte) (s : State) : Reply × State :=
  match fields [1, 1] args with
  | some [dest, thr] =>
    if thr ≤ 7 then
      answer [] { s with attention := { s.attention with
        destination := BitVec.ofNat 8 dest
        threshold := thr
        lastAlerted := if s.attention.destination = BitVec.ofNat 8 dest then s.attention.lastAlerted else none } }
    else refuse .badarg s
  | _ => refuse .badarg s

/-- peek peek attention (R184). -/
def takePeek (args : List Byte) (s : State) : Reply × State :=
  match fields [] args with
  | some [] =>
    match s.attention.highest with
    | none => refuse .none s
    | some x => answer (s.attention.report x) s
  | _ => refuse .badarg s

/-- Steps 1, 3 and 4 of ackn for source `x` (R185). -/
def Attention.acknowledge (a : Attention) (x : Source) : Attention :=
  let b := { a.setInService x true with lastAlerted := none }
  if x.isLevel then b else (b.setPending x false).dropCauses x

/-- ackn acknowledge attention (R185). -/
def takeAckn (args : List Byte) (s : State) : Reply × State :=
  match fields [] args with
  | some [] =>
    match s.attention.highest with
    | none => refuse .none s
    | some x => answer (s.attention.report x) { s with attention := s.attention.acknowledge x }
  | _ => refuse .badarg s

/-- eoas end of attention, source (R186). -/
def takeEoas (args : List Byte) (s : State) : Reply × State :=
  match fields [1] args with
  | some [src] =>
    match source? src with
    | some x =>
      let a := s.attention.setInService x false
      answer (be 1 (maskNat a.inService.toList)) { s with attention := a }
    | none => refuse .badarg s
  | _ => refuse .badarg s

/-- eoan end of attention, most urgent (R187). -/
def takeEoan (args : List Byte) (s : State) : Reply × State :=
  match fields [] args with
  | some [] =>
    match s.attention.mostUrgent (Source.all.filter s.attention.isInService) with
    | none => answer (optBytes (fun x : Source => be 1 x.code.val) none) s
    | some x =>
      answer (optBytes (fun x : Source => be 1 x.code.val) (some x))
        { s with attention := s.attention.setInService x false }
  | _ => refuse .badarg s

end Sys2Proof.Machine
end

