-- ==== Sys2Proof/Machine/Check.lean ====
section
/-! DEFINITION. The check unit (08): the read of a protected item with every effect of a corrected or uncorrectable
fault, and the commands rdfl, clfl and injf. -/

namespace Sys2Proof.Machine

/-- A value kept where it lies in its range, else the given replacement (R146 step 5). -/
def inRange (lo hi x repl : Nat) : Nat := if lo ≤ x ∧ x ≤ hi then x else repl

/-- Furnace configuration as read: fields out of range take their power-on values; the state field is taken from the
groups (R146, R148). -/
def FurnaceConfig.sanitized (c : FurnaceConfig) : FurnaceConfig :=
  let lo := inRange 0 cap32 c.bandLow 0
  { c with
    markSource := inRange 0 254 c.markSource 0
    length := inRange 1 1440 c.length 480
    offset := inRange 0 1439 c.offset 360
    blanking := inRange 0 120 c.blanking 0
    lowMass := inRange 0 cap32 c.lowMass 0
    bandLow := lo
    bandHigh := inRange lo cap32 c.bandHigh cap32 }

/-- Line configuration as read (R146, R148). -/
def LineConfig.sanitized (c : LineConfig) : LineConfig :=
  let lo := inRange 0 cap32 c.bandLow 0
  let glo := inRange 1 65535 c.gobLow 1
  { c with
    spacing := inRange 10 1000 c.spacing 100
    timeout := inRange 1 600 c.timeout 60
    gobLow := glo
    gobHigh := inRange glo 65535 c.gobHigh 65535
    lowMass := inRange 0 cap32 c.lowMass 0
    bandLow := lo
    bandHigh := inRange lo cap32 c.bandHigh cap32 }

/-- Job data as read (R146, R148). -/
def Job.sanitized (j : Job) : Job := { gobs := inRange 1 4 j.gobs 1, weight := inRange 1 65535 j.weight 1 }

def Energy.sanitized (e : Energy) : Energy :=
  { gas := inRange 0 cap48 e.gas 0, oil := inRange 0 cap48 e.oil 0, elec := inRange 0 cap48 e.elec 0
    oxy := inRange 0 cap48 e.oxy 0, aux := inRange 0 cap48 e.aux 0 }

def Stamp.sanitized (t : Stamp) : Stamp :=
  { t with sec := inRange 0 cap32 t.sec 0, ms := inRange 0 999 t.ms 0, elapsed := inRange 0 cap48 t.elapsed 0 }

/-- The shared part of a live set as read: fields out of range take their power-on value, zero (R146, R149). -/
def LiveBase.sanitized (b : LiveBase) : LiveBase :=
  { b with
    energy := b.energy.sanitized
    credit := inRange 0 cap48 b.credit 0
    estimated := inRange 0 cap48 b.estimated 0
    correction := if corrOver b.correction then 0 else b.correction
    start := b.start.sanitized }

def FurnaceLive.sanitized (x : FurnaceLive) : FurnaceLive :=
  { base := x.base.sanitized
    charge := inRange 0 cap48 x.charge 0
    cullet := inRange 0 cap48 x.cullet 0
    reversals := inRange 0 cap32 x.reversals 0
    lastReversal := inRange 0 cap32 x.lastReversal 0 }

def Mass.sanitized (m : Mass) : Mass := { grams := inRange 0 cap48 m.grams 0, tenths := inRange 0 9 m.tenths 0 }

def LineLive.sanitized (x : LineLive) : LineLive :=
  { base := x.base.sanitized
    cuts := inRange 0 cap32 x.cuts 0
    divertedCuts := inRange 0 cap32 x.divertedCuts 0
    formed := x.formed.sanitized
    diverted := x.diverted.sanitized
    rejected := x.rejected.sanitized
    rejectWare := inRange 0 cap32 x.rejectWare 0
    runningSeconds := inRange 0 cap32 x.runningSeconds 0
    stoppedSeconds := inRange 0 cap32 x.stoppedSeconds 0
    jobChanges := inRange 0 cap32 x.jobChanges 0
    weightHolds := inRange 0 cap32 x.weightHolds 0
    cutIntervals := match x.cutIntervals with
      | none => none
      | some (a, b) => if a ≤ 65535 ∧ b ≤ 65535 then some (a, b) else none }

/-- SUSPECT set (R149, R11). -/
def LiveBase.suspected (b : LiveBase) : LiveBase := { b with flags := { b.flags with suspect := true } }
def FurnaceLive.suspected (x : FurnaceLive) : FurnaceLive := { x with base := x.base.suspected }
def LineLive.suspected (x : LineLive) : LineLive := { x with base := x.base.suspected }

/-- A signed 48-bit field of a record as read: the least value of its range where it lies outside (R150). -/
def corrOrLeast (x : Int) : Int := if corrOver x then corrLow else x

def RatioItem.sanitized (r : RatioItem) : RatioItem := { r with value := r.value.map fun v => inRange 0 cap32 v 0 }

/-- A queued record as read and rewritten: SUSPECT set, and each field outside its range takes the least value of its
range; group, period number and piece count come from the order list (R150). -/
def GroupRecord.faulted (r : GroupRecord) : GroupRecord :=
  { r with
    start := r.start.sanitized
    stop := r.stop.sanitized
    duration := inRange 0 cap48 r.duration 0
    flags := { r.flags with suspect := true }
    furnace := { r.furnace with
      energy := r.furnace.energy.sanitized
      credit := inRange 0 cap48 r.furnace.credit 0
      estimated := inRange 0 cap48 r.furnace.estimated 0
      correction := corrOrLeast r.furnace.correction
      net := inRange 0 cap48 r.furnace.net 0
      charge := inRange 0 cap48 r.furnace.charge 0
      cullet := inRange 0 cap48 r.furnace.cullet 0
      pulled := inRange 0 cap48 r.furnace.pulled 0
      unallotted := r.furnace.unallotted.map fun v => inRange 0 cap48 v 0
      perMille := r.furnace.perMille.map fun v => inRange 0 1000 v 0
      reversals := inRange 0 cap32 r.furnace.reversals 0
      lastReversal := inRange 0 cap32 r.furnace.lastReversal 0
      melt := r.furnace.melt.sanitized }
    lines := r.lines.map fun e => { e with
      energy := e.energy.sanitized
      credit := inRange 0 cap48 e.credit 0
      estimated := inRange 0 cap48 e.estimated 0
      correction := corrOrLeast e.correction
      net := inRange 0 cap48 e.net 0
      share := inRange 0 cap48 e.share 0
      total := inRange 0 cap48 e.total 0
      cuts := inRange 0 cap32 e.cuts 0
      divertedCuts := inRange 0 cap32 e.divertedCuts 0
      pulled := inRange 0 cap48 e.pulled 0
      diverted := inRange 0 cap48 e.diverted 0
      formed := inRange 0 cap48 e.formed 0
      rejected := inRange 0 cap48 e.rejected 0
      packed := inRange 0 cap48 e.packed 0
      rejectWare := inRange 0 cap32 e.rejectWare 0
      runningSeconds := inRange 0 cap32 e.runningSeconds 0
      stoppedSeconds := inRange 0 cap32 e.stoppedSeconds 0
      jobChanges := inRange 0 cap32 e.jobChanges 0
      weightHolds := inRange 0 cap32 e.weightHolds 0
      cutIntervals := e.cutIntervals.map fun p => (inRange 0 65535 p.1 0, inRange 0 65535 p.2 0)
      pull := e.pull.sanitized
      pack := e.pack.sanitized }
    ratio := r.ratio.sanitized }

/-- A fault in a closing set's item: the account's figures are used as read, and the set is marked (R149). -/
def ClosingSet.faulted (c : ClosingSet) : Account → ClosingSet
  | .furnace _ => { c with furnace := c.furnace.sanitized.suspected }
  | .line l => { c with lines := c.lines.map fun x =>
      if x.line = l then { x with live := x.live.sanitized.suspected } else x }

/-- Errors that a stored item holds of its own (R145; log 22). -/
def State.latentErrors (s : State) (it : Item) : Nat :=
  ((s.latent.filter fun p => decide (p.1 = it)).map (·.2)).sum

/-- Errors that an armed injection adds at a read of the item (R154). -/
def State.injectedErrors (s : State) (it : Item) : Nat :=
  match s.check.armed with
  | none => 0
  | some j => if j.item = it then (if j.double then 2 else 1) else 0

/-- Errors the test of R145 finds at a read of the item. -/
def State.errorsIn (s : State) (it : Item) : Nat := s.latentErrors it + s.injectedErrors it

/-- A write of the item, whole or in part: a fresh checking code (R145). -/
def State.rewritten (s : State) (it : Item) : State :=
  { s with latent := s.latent.filter fun p => !decide (p.1 = it) }

/-- The read takes the injection armed on the item (R154). -/
def State.disarmed (s : State) (it : Item) : State :=
  match s.check.armed with
  | none => s
  | some j => if j.item = it then { s with check := { s.check with armed := none } } else s

/-- What the check unit does at an uncorrectable fault (R146 steps 1 to 4). -/
def State.recordFault (s : State) (it : Item) : State :=
  let slot : FaultSlot := { item := it, time := s.now }
  { s with check := { s.check with
      first := match s.check.first with
        | none => some slot
        | some x => some x
      latest := some slot
      uncorrectable := satAdd cap16 s.check.uncorrectable 1 } }.raise .falt

/-- The configuration-fault mark of an account set (R148). -/
def State.markConfig (s : State) : Account → State
  | .furnace f => { s with check := { s.check with furnaceMarks := vset s.check.furnaceMarks f true } }
  | .line l => { s with check := { s.check with lineMarks := vset s.check.lineMarks l true } }

/-- The effect of an uncorrectable fault on the block that owns the item (R147 to R150). -/
def State.ownerFault (s : State) : Item → State
  | .stream k => (s.setStream k none).raiseStream k .fault
  | .config a =>
    (match a with
      | .furnace f => s.setFurnaceCfg f (s.furnaceCfg f).sanitized
      | .line l => (s.setLineCfg l (s.lineCfg l).sanitized).setJob l (s.job l).sanitized).markConfig a
  | .live a =>
    if s.run = .run ∨ s.run = .halt then
      match a with
      | .furnace f => s.setFLive f (s.fLive f).sanitized.suspected
      | .line l => s.setLLive l (s.lLive l).sanitized.suspected
    else
      match a with
      | .furnace f => s.setFLive f {}
      | .line l => s.setLLive l {}
  | .closing (.furnace f) =>
    s.setGroup f { s.group f with closing := (s.group f).closing.map fun c => c.faulted (.furnace f) }
  | .closing (.line l) =>
    { s with groups := vgen fun g => { s.group g with closing := (s.group g).closing.map fun c => c.faulted (.line l) } }
  | .queue i => { s with records := s.records.modify i GroupRecord.faulted }

/-- A read of a protected item with its test (R144, R145): no error, one error corrected and counted, or an
uncorrectable fault with the effects of R146 to R150. The event then works on the state this answers. DESIGN CHOICE:
more than two errors in all (an item that holds one and takes a DOUBLE injection), of which R145 and R154 say nothing,
are an uncorrectable fault as two are (log 44). -/
def State.touch (s : State) (it : Item) : State :=
  let n := s.errorsIn it
  let s1 := (s.disarmed it).rewritten it
  if n = 0 then s
  else if n = 1 then { s1 with check := { s1.check with corrected := satAdd cap16 s1.check.corrected 1 } }
  else (s1.recordFault it).ownerFault it

/-- Reads of several items, in order (R144). -/
def State.touchAll (s : State) (its : List Item) : State := its.foldl State.touch s

/-- What a read of a furnace's configuration gives, before the read is made (R148). -/
def State.furnaceAsRead (s : State) (f : Fin 4) : FurnaceConfig :=
  if 2 ≤ s.errorsIn (.config (.furnace f)) then (s.furnaceCfg f).sanitized else s.furnaceCfg f

/-- What a read of a line's configuration gives, before the read is made (R148). -/
def State.lineAsRead (s : State) (l : Fin 8) : LineConfig :=
  if 2 ≤ s.errorsIn (.config (.line l)) then (s.lineCfg l).sanitized else s.lineCfg l

/-- The items of the loaded stream entries, as a held-stream scan reads them (R144, log 15). -/
def State.loadedItems (s : State) : List Item :=
  ((List.finRange 48).filter fun k => (s.stream k).isSome).map Item.stream

/-! ### Commands -/

/-- A slot of the fault record or its empty mark (R151). -/
def FaultSlot.bytes (x : FaultSlot) : List Byte := be 1 x.item.region ++ be 1 x.item.index ++ be 6 x.time

def Injection.bytes (j : Injection) : List Byte :=
  be 1 j.item.region ++ be 1 j.item.index ++ be 1 (if j.double then 2 else 1)

/-- rdfl read fault record (R151). -/
def takeRdfl (args : List Byte) (s : State) : Reply × State :=
  match fields [] args with
  | some [] =>
    answer (optBytes FaultSlot.bytes s.check.first ++ optBytes FaultSlot.bytes s.check.latest ++
      be 2 s.check.uncorrectable ++ be 2 s.check.corrected ++ optBytes Injection.bytes s.check.armed ++
      be 2 (maskNat (s.check.furnaceMarks.toList ++ s.check.lineMarks.toList))) s
  | _ => refuse .badarg s

/-- clfl clear fault record (R152). -/
def takeClfl (args : List Byte) (s : State) : Reply × State :=
  match fields [] args with
  | some [] =>
    answer [] { s with check := { s.check with first := none, latest := none, uncorrectable := 0, corrected := 0 } }
  | _ => refuse .badarg s

/-- The item that injf names, where the index lies in the region's range (R153). -/
def injectItem (s : State) (region index : Nat) : Option Item :=
  match region with
  | 0 => (fin? 48 index).map Item.stream
  | 1 => (account? index).map Item.config
  | 2 => (account? index).map Item.live
  | 3 => (account? index).map Item.closing
  | 4 => if index < s.records.length then some (.queue index) else none
  | _ => none

/-- injf inject fault (R153). -/
def takeInjf (args : List Byte) (s : State) : Reply × State :=
  match fields [1, 1, 1] args with
  | some [region, index, kind] =>
    match injectItem s region index with
    | some it =>
      if kind = 1 ∨ kind = 2 then
        answer [] { s with check := { s.check with armed := some { item := it, double := decide (kind = 2) } } }
      else refuse .badarg s
    | none => refuse .badarg s
  | _ => refuse .badarg s

end Sys2Proof.Machine
end

