-- ==== Sys2Proof/Machine/Clock.lean ====
section
/-! DEFINITION. The plant clock (05): timed boundaries and the passage of one millisecond. -/

namespace Sys2Proof.Machine

/-- The boundary minutes of the day for a period offset and length: one for each `k` with `k * length` below 1440, so
`ceil (1440 / length)` of them (R98). -/
def boundaryMinutes (offset length : Nat) : List Nat :=
  (List.range ((1439 + length) / length)).map fun k => (offset + k * length) % 1440

/-- The first instant with time of day `60 * m` seconds strictly after plant second `sec` (R98). -/
def nextAt (sec m : Nat) : Nat :=
  let t := sec / 86400 * 86400 + 60 * m
  if sec < t then t else t + 86400

/-- The least of a list of instants, or none. -/
def earliest : List Nat → Option Nat
  | [] => none
  | t :: ts =>
    match earliest ts with
    | none => some t
    | some u => if u < t then some u else some t

/-- The earliest boundary instant strictly later than plant time. A boundary instant is a plant time, so one past the
plant time range is none (R98; log 18). Milliseconds do not enter: an instant has milliseconds 0. -/
def nextBoundary (offset length sec : Nat) : Option Nat :=
  earliest (((boundaryMinutes offset length).map (nextAt sec)).filter fun t => decide (t ≤ cap32))

/-- Whether a furnace has timed boundaries: DEFINED, and TIMED or BOTH (R98). -/
def FurnaceConfig.timed (c : FurnaceConfig) : Bool := c.defined && decide (c.mode ≠ .marked)

/-- The next boundary of a group as it is computed from the present plant time (R98). -/
def State.boundaryFrom (s : State) (g : Fin 4) : Option Nat :=
  if (s.furnaceCfg g).timed ∧ s.clock.timeSet then
    nextBoundary (s.furnaceCfg g).offset (s.furnaceCfg g).length s.clock.sec
  else none

/-- A group's next boundary. -/
def State.boundary (s : State) (g : Fin 4) : Option Nat := vget s.clock.boundary g

/-- A group's next boundary replaced. -/
def State.setBoundary (s : State) (g : Fin 4) (t : Option Nat) : State :=
  { s with clock := { s.clock with boundary := vset s.clock.boundary g t } }

/-- The read of a furnace's configuration at a boundary computation (R144, log 16). -/
def State.touchBoundary (s : State) (g : Fin 4) : State :=
  if (s.furnaceCfg g).defined then s.touch (.config (.furnace g)) else s

/-- A group's next boundary computed anew (R98). -/
def State.computeBoundary (s : State) (g : Fin 4) : State :=
  let s1 := s.touchBoundary g
  s1.setBoundary g (s1.boundaryFrom g)

/-- One millisecond passes: the elapsed base advances, and plant time with it (R93, R94). A second mark and a wrap of
plant seconds become due. -/
def Clock.advance (c : Clock) : Clock :=
  let e := c.elapsed + 1
  let full := decide (999 ≤ c.ms)
  let wraps := full && decide (cap32 ≤ c.sec)
  { c with
    elapsed := e
    ms := if full then 0 else c.ms + 1
    sec := if full then (if wraps then 0 else c.sec + 1) else c.sec
    secondDue := decide (e % 1000 = 0)
    wrapDue := wraps }

/-- TIME-ADJUSTED set in an account's live set (R101). -/
def LiveBase.adjusted (b : LiveBase) : LiveBase := { b with flags := { b.flags with timeAdjusted := true } }

/-- The live sets a taken sett or adjt marks TIME-ADJUSTED (R101): in RUN and HALT, those of every defined furnace and
every assigned line. The marking is a write without a read (log 32). -/
def State.markAdjusted (s : State) : State :=
  if s.run = .run ∨ s.run = .halt then
    { s with
      furnaceLive := vgen fun f =>
        if (s.furnaceCfg f).defined then { s.fLive f with base := (s.fLive f).base.adjusted } else s.fLive f
      lineLive := vgen fun l =>
        if s.assigned l then { s.lLive l with base := (s.lLive l).base.adjusted } else s.lLive l
      latent := s.latent.filter fun p =>
        match p.1 with
        | .live a => !s.accountInUse a
        | _ => true }
  else s

/-- rdtm read time (R97). -/
def takeRdtm (args : List Byte) (s : State) : Reply × State :=
  match fields [] args with
  | some [] =>
    answer (be 4 s.clock.sec ++ be 2 s.clock.ms ++ flagByte s.clock.timeSet ++ be 6 s.clock.elapsed ++
      (List.finRange 4).flatMap fun g => optBytes (be 4) (s.boundary g)) s
  | _ => refuse .badarg s

end Sys2Proof.Machine
end

