-- ==== Sys2Proof/Machine/Booking.lean ====
section
/-! DEFINITION. The booking engine (03): deltas, the delta limit, conversion, estimates, corrections and gob-weight
values. It keeps no state of its own. -/

namespace Sys2Proof.Machine

/-- A sample as the stream table reads it from a smpl payload (R29, R190): its format, or none where no entry accepts
it, whether it came in the short form, its value and, for STEP, its sequence number. -/
structure Sample where
  format : Option Format
  short : Bool
  value : Nat
  seq : Nat
  deriving DecidableEq, Repr

/-- The categories whose samples count raw units (R50). -/
def Category.counting : Category → Bool
  | .gobw => false
  | _ => true

/-- The categories that are estimated and corrected (R65). -/
def Category.estimated : Category → Bool
  | .energy => true
  | .credit => true
  | _ => false

/-- The modulus of a running total in the format (R52, R53). -/
def StreamEntry.modulusFor (e : StreamEntry) : Format → Nat
  | .total32 => e.modulus
  | _ => 65536

/-- A sample's value as the stream uses it: a TOTAL32 value is reduced modulo the entry's modulus (R52). -/
def StreamEntry.reduce (e : StreamEntry) (f : Format) (v : Nat) : Nat :=
  match f with
  | .total32 => v % e.modulus
  | _ => v

/-- The raw delta of a running total (R52, R53). -/
def wrapDelta (m base value : Nat) : Nat := ((value : Int) - (base : Int)).emod (m : Int) |>.toNat

/-- The gap count of a STEP sample: frames missed between the last sequence and this one (R55). -/
def gapCount (lastSeq seq : Nat) : Nat := (((seq : Int) - (lastSeq : Int) - 1) % 256).toNat

/-- Elapsed milliseconds as whole seconds rounded up, never less than 1 (R56). -/
def limitSeconds (ms : Nat) : Nat := max 1 ((ms + 999) / 1000)

/-- The furnace whose blanking a stream heeds: that of a reversal-sensitive ENERGY or CREDIT stream with a furnace for
its target (R40, R56, R21). -/
def StreamEntry.blankingFurnace (e : StreamEntry) : Option (Fin 4) :=
  if e.sensitive ∧ e.category.estimated then
    match e.target with
    | .furnace f => some f
    | .line _ => none
  else none

/-- The stream heeds a blanking that is in progress. -/
def State.blanked (s : State) (e : StreamEntry) : Bool :=
  match e.blankingFurnace with
  | some f => s.inBlanking f
  | none => false

/-- The delta limit (R56). -/
def State.deltaLimit (s : State) (e : StreamEntry) (ms : Nat) : Nat :=
  e.maxRate * limitSeconds ms * (if s.blanked e then 4 else 1)

/-- The held rate that a delta gives (R61). -/
def heldRateOf (delta ms maxRate : Nat) : Nat := min (delta * 65536 * 1000 / max 1 ms) (maxRate * 65536)

/-- Conversion of a whole raw amount: the booked whole part and the new remainder (R58). -/
def convert (factor rem amount : Nat) : Nat × Nat :=
  ((amount * factor + rem) / 65536, (amount * factor + rem) % 65536)

/-- Conversion of an estimate, a count of 1/65536 raw units (R64). -/
def convertEstimate (factor rem amount : Nat) : Nat × Nat :=
  ((amount * factor / 65536 + rem) / 65536, (amount * factor / 65536 + rem) % 65536)

/-- The largest pending estimate: 281,474,976,710,655 and 65,535/65,536 raw units (R60). -/
abbrev pendingCap : Nat := cap48 * 65536 + 65535

/-- A signed count of 1/2^32 kJ rounded to the nearest kJ, an exact half away from zero (R67). -/
def roundCorrection (x : Int) : Int :=
  let k : Int := ((x.natAbs + 2147483648) / 4294967296 : Nat)
  if x < 0 then -k else k

/-- A whole amount booked where the entry's category sends it, and tallied in estimated where it is an estimate of an
energy stream (R58, R60, R64). -/
def State.book (s : State) (e : StreamEntry) (w : Nat) (est : Bool) : State :=
  match e.category with
  | .energy =>
    let b := (s.liveBase e.target).addEnergy e.kind w
    s.setLiveBase e.target (if est then b.addEstimated w else b)
  | .credit =>
    let b := (s.liveBase e.target).addCredit w
    s.setLiveBase e.target (if est then b.addEstimated w else b)
  | .charge =>
    match e.target with
    | .furnace f =>
      let x := s.fLive f
      s.setFLive f { x with
        charge := satAdd cap48 x.charge w
        base := { x.base with flags := x.base.flags.saturated (satOver cap48 x.charge w) } }
    | .line _ => s
  | .cullet =>
    match e.target with
    | .furnace f =>
      let x := s.fLive f
      s.setFLive f { x with
        cullet := satAdd cap48 x.cullet w
        base := { x.base with flags := x.base.flags.saturated (satOver cap48 x.cullet w) } }
    | .line _ => s
  | .gobw => s

/-- A correction booked: added for an ENERGY stream, subtracted for a CREDIT stream (R67). -/
def State.bookCorrection (s : State) (e : StreamEntry) (k : Int) : State :=
  match e.category with
  | .energy => s.setLiveBase e.target ((s.liveBase e.target).addCorrection k)
  | .credit => s.setLiveBase e.target ((s.liveBase e.target).addCorrection (-k))
  | _ => s

/-- A stream's number added, in RUN, to the held-stream set of its target's current live set (R45). The addition is a
write without a read (log 32). -/
def State.addHeld (s : State) (k : Fin 48) (e : StreamEntry) : State :=
  if s.run = .run then
    (s.setLiveBase e.target ((s.liveBase e.target).hold k)).rewritten (.live e.target)
  else s

/-- An estimate request of `amount` 1/65536 raw units for stream `k` (R62 to R65). It acts for an ENERGY or CREDIT
stream in RUN. -/
def State.estimate (s : State) (k : Fin 48) (amount : Nat) : State :=
  match s.stream k with
  | none => s
  | some st =>
    if st.entry.category.estimated ∧ s.run = .run then
      let s1 := s.touch (.live st.entry.target)
      let c := convertEstimate st.entry.factor st.live.remainder amount
      (s1.book st.entry c.1 true).setStreamLive k st { st.live with
        remainder := c.2
        pending := min (st.live.pending + amount) pendingCap }
    else s

/-- The live state after a good sample that leaves the stream LIVE: the time of last good sample is now, the stale and
hold timers start, the other timers stop and the stale deferral mark is cleared (R27, R36, R40, R43). -/
def StreamLive.good (v : StreamLive) (e : StreamEntry) (now : Nat) : StreamLive :=
  { v with
    state := .live
    lastGood := some now
    deferral := false
    selectAt := none
    staleAt := some (now + 3 * e.interval * 1000)
    intervalAt := none
    holdAt := some (now + e.hold * 60000) }

/-- What a counting sample measures (R50 steps 1 to 3). -/
structure Measured where
  /-- the value as the stream uses it: the reduced total, or the increment -/
  value : Nat
  delta : Nat
  gap : Nat
  gapAmount : Nat
  elapsed : Nat
  deriving DecidableEq, Repr

/-- The measurement of a sample against the stream's base (R52, R53, R55). A base or last sequence that is absent does
not arise here in a reachable state (log 27). -/
def measure (e : StreamEntry) (v : StreamLive) (f : Format) (smp : Sample) (now : Nat) : Measured :=
  let b := v.base.getD 0
  let ms := now - v.lastGood.getD now
  match f with
  | .step =>
    let g := match v.lastSeq with
      | some p => gapCount p smp.seq
      | none => 0
    { value := smp.value, delta := smp.value, gap := g, gapAmount := g * b, elapsed := ms }
  | _ =>
    { value := e.reduce f smp.value, delta := wrapDelta (e.modulusFor f) b (e.reduce f smp.value)
      gap := 0, gapAmount := 0, elapsed := ms }

/-- The base and, for STEP, the last sequence take the sample's values (R50 step 6). -/
def StreamLive.rebase (v : StreamLive) (f : Format) (value seq : Nat) : StreamLive :=
  { v with base := some value, lastSeq := if f = .step then some seq else none }

/-- A delta accepted in LIVE in RUN (R58, R60): for an ENERGY or CREDIT stream the gap amount is booked first, as an
estimate; then the delta. Gives the state and the new remainder. -/
def State.bookDelta (s : State) (e : StreamEntry) (rem : Nat) (m : Measured) : State × Nat :=
  let s1 := s.touch (.live e.target)
  if 0 < m.gap ∧ e.category.estimated then
    let c1 := convert e.factor rem m.gapAmount
    let c2 := convert e.factor c1.2 m.delta
    ((s1.book e c1.1 true).book e c2.1 false, c2.2)
  else
    let c := convert e.factor rem m.delta
    (s1.book e c.1 false, c.2)

/-- A return from STALE or LOST within the limit in RUN (R66, R67, R69, R70): an ENERGY or CREDIT stream books the
correction; a CHARGE or CULLET stream books the delta. Gives the state and the new remainder. DEDUCED: a correction
whose K is 0, which R67 calls a booking of nothing, reads the live set all the same (log 35). -/
def State.bookReturn (s : State) (e : StreamEntry) (v : StreamLive) (m : Measured) : State × Nat :=
  let s1 := s.touch (.live e.target)
  if e.category.estimated then
    let c : Int := ((m.delta + m.gapAmount) * 65536 : Nat) - (v.pending : Int)
    (s1.bookCorrection e (roundCorrection (c * (e.factor : Int))), v.remainder)
  else
    let c := convert e.factor v.remainder m.delta
    (s1.book e c.1 false, c.2)

/-- The bookings of an accepted counting sample by the stream's state and the run state (R50 steps 4 and 5, R51). -/
def State.bookSample (s : State) (e : StreamEntry) (v : StreamLive) (m : Measured) : State × Nat :=
  if s.run = .run then
    if v.state = .live then s.bookDelta e v.remainder m else s.bookReturn e v m
  else (s, v.remainder)

/-- A counting sample in the format in use, taken by a stream in LIVE, STALE or LOST with its base present (R50). The
held rate is computed at a return too, as R61, R66, R68 and R70 say; DESIGN CHOICE: they are followed over R43, which
keeps it until the next LIVE booking (log 39). -/
def State.countingSample (s : State) (k : Fin 48) (st : Stream) (f : Format) (smp : Sample) : State :=
  let e := st.entry
  let v := st.live
  if f = .step ∧ v.lastSeq = some smp.seq then
    s.setStreamLive k st { v with counts := { v.counts with repeats := bump v.counts.repeats } }
  else
    let m := measure e v f smp s.now
    let v1 := if 0 < m.gap then { v with counts := { v.counts with gaps := bump v.counts.gaps } } else v
    if m.delta + m.gapAmount > s.deltaLimit e m.elapsed then
      let v2 := { (v1.rebase f m.value smp.seq).good e s.now with
        pending := 0
        counts := { v1.counts with jumps := bump v1.counts.jumps } }
      (s.setStreamLive k st v2).raiseStream k .jump
    else
      let r := s.bookSample e v m
      let v2 := { (v1.rebase f m.value smp.seq).good e s.now with
        pending := if v.state = .live then v.pending else 0
        remainder := r.2
        heldRate := if 0 < m.gap then v.heldRate else heldRateOf m.delta m.elapsed e.maxRate }
      r.1.setStreamLive k st v2

/-- A gob-weight value handed to the booking engine by GOBW stream `k` (R71, R72): in band it replaces the line's gob
weight; out of band it is counted as a hold. The stream's base already holds the value. -/
def State.gobValue (s : State) (k : Fin 48) (value : Nat) : State :=
  match s.stream k with
  | none => s
  | some st =>
    match st.entry.target with
    | .furnace _ => s
    | .line l =>
      let s1 := s.touch (.config (.line l))
      if (s1.lineCfg l).gobLow ≤ value ∧ value ≤ (s1.lineCfg l).gobHigh then
        s1.setJob l { s1.job l with weight := value }
      else
        let s2 := s1.setStreamLive k st { st.live with
          counts := { st.live.counts with weightHolds := bump st.live.counts.weightHolds } }
        if s2.run = .run then
          let s3 := s2.touch (.live (.line l))
          let x := s3.lLive l
          (s3.setLLive l { x with weightHolds := bump x.weightHolds }).addHeld k st.entry
        else s2

/-- The loaded GOBW streams that target a line (R73, log 33). -/
def State.gobStreams (s : State) (l : Fin 8) : List (Fin 48) :=
  (List.finRange 48).filter fun k =>
    match s.stream k with
    | some st => decide (st.entry.category = .gobw ∧ st.entry.target = .line l)
    | none => false

/-- A cut counted as a weight hold of stream `k`, where it is STALE or LOST (R73). -/
def State.holdStream (s : State) (k : Fin 48) : State :=
  match s.stream k with
  | some st =>
    if st.live.state = .stale ∨ st.live.state = .lost then
      s.setStreamLive k st { st.live with
        counts := { st.live.counts with weightHolds := bump st.live.counts.weightHolds } }
    else s
  | none => s

/-- A stream of the list is STALE or LOST. -/
def State.anySilent (s : State) (ks : List (Fin 48)) : Bool :=
  ks.any fun k =>
    match s.stream k with
    | some st => decide (st.live.state = .stale ∨ st.live.state = .lost)
    | none => false

/-- The cut request of a line's accepted cut in RUN (R73): each silent GOBW stream of the line counts a hold, and the
line's live set counts one for the cut where there is such a stream. The reads are the cut's own. -/
def State.cutRequest (s : State) (l : Fin 8) (ks : List (Fin 48)) : State :=
  let s1 := ks.foldl State.holdStream s
  if s.anySilent ks then
    let x := s1.lLive l
    s1.setLLive l { x with weightHolds := bump x.weightHolds }
  else s1

end Sys2Proof.Machine
end

