-- ==== Sys2Proof/Machine/Streams.lean ====
section
/-! DEFINITION. The stream table, the binding controller and the heard list (02): frames, timers and the commands
ldst, rdst, sten and lstn. -/

namespace Sys2Proof.Machine

/-! ### Reading payloads (R29, R190) -/

/-- The low half of a byte. -/
def lowHalf (b : Byte) : Nat := b.toNat % 16
/-- The high half of a byte. -/
def highHalf (b : Byte) : Nat := b.toNat / 16

/-- The sample of a format code and value bytes; no format where the length or the code does not suit (R190). -/
def sampleOf (code : Nat) (value : List Byte) : Sample :=
  match code, value.length with
  | 0, 4 => ⟨some .total32, true, beNat value, 0⟩
  | 0, 2 => ⟨some .total16, true, beNat value, 0⟩
  | 1, 4 => ⟨some .total32, false, beNat value, 0⟩
  | 2, 3 => ⟨some .step, false, beNat (value.take 2), beNat (value.drop 2)⟩
  | 3, 2 => ⟨some .total16, false, beNat value, 0⟩
  | 4, 2 => ⟨some .value, false, beNat value, 0⟩
  | c, _ => ⟨none, decide (c = 0), 0, 0⟩

/-- The channel and sample of a smpl payload; a payload of 0 bytes carries no channel (R190). -/
def readSmpl : List Byte → Option (Nat × Sample)
  | [] => none
  | b :: value => some (lowHalf b, sampleOf (highHalf b) value)

/-- The channel and format set of a helo payload; one shorter than 2 bytes names no formats (R190). DESIGN CHOICE: bits
7 to 4 of byte 0, which R190 gives as zero, and bytes past the second are not read (log 29). -/
def readHelo : List Byte → Option (Nat × FormatSet)
  | [] => none
  | [b] => some (lowHalf b, ⟨false, false, false, false⟩)
  | b :: fs :: _ => some (lowHalf b, formatSetOf fs)

/-- The loaded entry that holds a source and channel, by the search list (R21, R144). -/
def State.findStream (s : State) (src : Byte) (ch : Nat) : Option (Fin 48) :=
  (List.finRange 48).find? fun k =>
    match s.stream k with
    | some st => decide (st.entry.source = src ∧ st.entry.channel = ch)
    | none => false

/-! ### The heard list -/

/-- The heard list after a frame from a pair that no enabled stream binds (R47). -/
def hearOn (l : List Heard) (x : Heard) : List Heard :=
  if l.any fun h => decide (h.source = x.source ∧ h.channel = x.channel) then
    l.map fun h => if h.source = x.source ∧ h.channel = x.channel then x else h
  else if l.length < 8 then l ++ [x]
  else l.drop 1 ++ [x]

/-- A frame from an unbound pair changes the heard list, and raises HEAR where the pair is new (R47). -/
def State.hear (s : State) (src : Byte) (ch : Nat) (kind : Byte) : State :=
  let x : Heard := { source := src, channel := ch, kind := kind, time := s.now }
  let known := s.heard.any fun h => decide (h.source = src ∧ h.channel = ch)
  let s1 := { s with heard := hearOn s.heard x }
  if known then s1 else s1.raise .hear

/-- A pair removed from the heard list, which closes up (R48). -/
def State.unhear (s : State) (src : Byte) (ch : Nat) : State :=
  { s with heard := s.heard.filter fun h => !decide (h.source = src ∧ h.channel = ch) }

/-! ### Binding -/

/-- A format fault counted for a stream (R46). -/
def StreamLive.formatFault (v : StreamLive) : StreamLive :=
  { v with counts := { v.counts with formatFaults := bump v.counts.formatFaults } }

/-- A format fault counted, with STRM FORMAT raised (R46). -/
def State.faultFormat (s : State) (k : Fin 48) (st : Stream) (v : StreamLive) : State :=
  (s.setStreamLive k st v.formatFault).raiseStream k .format

/-- The format the stream table chooses from those a helo names (R30 step 2). -/
def chooseFormat (e : StreamEntry) (named : FormatSet) : Option Format :=
  (if e.category.counting then [Format.total32, Format.step, Format.total16] else [Format.value]).find? fun f =>
    named.has f && e.formats.has f

/-- A sample taken as the stream's base (R32, R34, R35, R43): nothing of a counting sample is booked; a GOBW value is
handed to the booking engine. -/
def State.takeBase (s : State) (k : Fin 48) (st : Stream) (v : StreamLive) (f : Format) (smp : Sample) : State :=
  let v1 := { (v.rebase f (st.entry.reduce f smp.value) smp.seq).good st.entry s.now with format := some f }
  let s1 := s.setStreamLive k st v1
  if st.entry.category = .gobw then s1.gobValue k smp.value else s1

/-- The sample's format, where it is among the entry's accepted formats. -/
def StreamEntry.accepts (e : StreamEntry) (smp : Sample) : Option Format :=
  smp.format.filter e.formats.has

/-- A smpl taken by a stream in WAIT (R34, R35). -/
def State.sampleInWait (s : State) (k : Fin 48) (st : Stream) (smp : Sample) : State :=
  match st.entry.accepts smp with
  | some f => s.takeBase k st { st.live with inferred := smp.short, attempts := 0 } f smp
  | none => s.faultFormat k st st.live

/-- A smpl taken by a stream in SELECT (R32). -/
def State.sampleInSelect (s : State) (k : Fin 48) (st : Stream) (smp : Sample) : State :=
  match smp.format with
  | some f =>
    if st.live.format = some f then s.takeBase k st { st.live with inferred := false, attempts := 0 } f smp
    else s.setStreamLive k st st.live.formatFault
  | none => s.setStreamLive k st st.live.formatFault

/-- Entry to STALE (R39): the whole-gap estimate, STRM STALE, the interval timer, the held-stream set in RUN. The stale
timer stops and the stale deferral mark is cleared. -/
def State.enterStale (s : State) (k : Fin 48) : State :=
  match s.stream k with
  | none => s
  | some st =>
    let v := { st.live with
      state := .stale
      staleAt := none
      deferral := false
      intervalAt := some (s.now + st.entry.interval * 1000) }
    let gap := (s.now - st.live.lastGood.getD s.now) / 1000
    (((s.setStreamLive k st v).estimate k (v.heldRate * gap)).raiseStream k .stale).addHeld k st.entry

/-- A smpl in another format while bound with a base (R37). A LIVE stream enters STALE, its estimate before its number
joins the held streams (R39); a STALE or LOST one joins them where it is. -/
def State.formatFaultBound (s : State) (k : Fin 48) (st : Stream) : State :=
  let v := { st.live.formatFault with base := none, lastSeq := none, pending := 0 }
  let s1 := (s.setStreamLive k st v).raiseStream k .format
  if st.live.state = .live then s1.enterStale k else s1.addHeld k st.entry

/-- A smpl in the format in use handed to the booking engine (R36, R43): a counting sample, or a GOBW value, which
makes the sample a good sample and the value the base (R71). -/
def State.handOver (s : State) (k : Fin 48) (st : Stream) (f : Format) (smp : Sample) : State :=
  if st.entry.category.counting then s.countingSample k st f smp
  else
    let v := { (st.live.rebase f smp.value smp.seq).good st.entry s.now with pending := 0 }
    (s.setStreamLive k st v).gobValue k smp.value

/-- A smpl taken by a stream in LIVE, STALE or LOST (R36, R37, R43). -/
def State.sampleWhileBound (s : State) (k : Fin 48) (st : Stream) (smp : Sample) : State :=
  match st.live.base with
  | some _ =>
    match smp.format with
    | some f => if st.live.format = some f then s.handOver k st f smp else s.formatFaultBound k st
    | none => s.formatFaultBound k st
  | none =>
    match st.entry.accepts smp with
    | some f => s.takeBase k st { st.live with inferred := smp.short, pending := 0 } f smp
    | none => s.faultFormat k st st.live

/-- A smpl taken by stream `k` (R32, R34 to R37, R43). -/
def State.streamSample (s : State) (k : Fin 48) (smp : Sample) : State :=
  match s.stream k with
  | none => s
  | some st =>
    match st.live.state with
    | .off => s
    | .wait => s.sampleInWait k st smp
    | .select => s.sampleInSelect k st smp
    | .live => s.sampleWhileBound k st smp
    | .stale => s.sampleWhileBound k st smp
    | .lost => s.sampleWhileBound k st smp

/-- The slct frame to a stream's meter (R31). -/
def State.slctFrame (s : State) (e : StreamEntry) (f : Format) : Frame :=
  { dest := e.source, src := s.address, kind := kindSlct, payload := be 1 e.channel ++ be 1 f.code }

/-- A stream goes to SELECT, or stays there, with a format now chosen: the slct is queued, or lost, and the select timer
starts (R30 step 3, R31, R32). -/
def State.offerFormat (s : State) (k : Fin 48) (st : Stream) (v : StreamLive) (f : Format) : State :=
  (s.setStreamLive k st { v with
    state := .select, format := some f, selectAt := some (s.now + Config.selectMs) }).pushLocal .field
      (s.slctFrame st.entry f)

/-- A helo taken by a stream in WAIT whose live state is `v` (R30). -/
def State.heloInWait (s : State) (k : Fin 48) (st : Stream) (v : StreamLive) (named : FormatSet) : State :=
  if v.adoptOnly then s.setStreamLive k st v
  else
    match chooseFormat st.entry named with
    | some f => s.offerFormat k st v f
    | none => s.faultFormat k st v

/-- A helo taken by a stream in SELECT (R32). With no common format the stream is in WAIT without a format (DEDUCED from
R28; log 23). -/
def State.heloInSelect (s : State) (k : Fin 48) (st : Stream) (named : FormatSet) : State :=
  match chooseFormat st.entry named with
  | some f => s.offerFormat k st st.live f
  | none => s.faultFormat k st { st.live with state := .wait, format := none, selectAt := none }

/-- A meter restart: a helo taken by a stream in LIVE, STALE or LOST, and then by the stream in WAIT (R38). -/
def State.restart (s : State) (k : Fin 48) (st : Stream) (named : FormatSet) : State :=
  let v := { st.live.formatFault with
    state := .wait
    base := none
    lastSeq := none
    format := none
    inferred := false
    deferral := false
    pending := 0
    staleAt := none
    intervalAt := none
    holdAt := none }
  (((s.setStreamLive k st v).raiseStream k .format).addHeld k st.entry).heloInWait k st v named

/-- A helo taken by stream `k` (R30, R32, R38). -/
def State.streamHelo (s : State) (k : Fin 48) (named : FormatSet) : State :=
  match s.stream k with
  | none => s
  | some st =>
    match st.live.state with
    | .off => s
    | .wait => s.heloInWait k st st.live named
    | .select => s.heloInSelect k st named
    | .live => s.restart k st named
    | .stale => s.restart k st named
    | .lost => s.restart k st named

/-- Stream `k` is enabled: its entry is loaded and not in OFF. -/
def State.enabled (s : State) (k : Fin 48) : Bool :=
  match s.stream k with
  | some st => decide (st.live.state ≠ .off)
  | none => false

/-- A smpl or helo with a source and channel at the stream table (R29): to the heard list where no enabled stream holds
the pair; otherwise the stream reads its item (R144) and takes the frame, unless the read empties the entry (R147). -/
def State.matchFrame (s : State) (src : Byte) (ch : Nat) (kind : Byte) (act : Fin 48 → State → State) : State :=
  if s.run = .pass then s
  else
    match s.findStream src ch with
    | none => s.hear src ch kind
    | some k => if s.enabled k then act k (s.touch (.stream k)) else s.hear src ch kind

/-- A smpl frame handed to the stream table (R29, R190). -/
def State.tapSmpl (s : State) (src : Byte) (payload : List Byte) : State :=
  match readSmpl payload with
  | none => s
  | some (ch, smp) => s.matchFrame src ch kindSmpl fun k t => t.streamSample k smp

/-- A helo frame handed to the stream table (R29, R190). -/
def State.tapHelo (s : State) (src : Byte) (payload : List Byte) : State :=
  match readHelo payload with
  | none => s
  | some (ch, named) => s.matchFrame src ch kindHelo fun k t => t.streamHelo k named

/-! ### Timers -/

/-- An expiry of a timer of stream `k`: where the stream is loaded, the part is not in PASS and the timer is due in one
of its states, the stream reads its item and acts, unless the read empties the entry (R14, R27, R144, R147; log 7). -/
def State.streamTimer (s : State) (k : Fin 48) (isDue : StreamLive → Bool) (act : Stream → State → State) : State :=
  if s.run = .pass then s
  else
    match s.stream k with
    | none => s
    | some st =>
      if isDue st.live then
        let s1 := s.touch (.stream k)
        match s1.stream k with
        | none => s1
        | some st1 => act st1 s1
      else s

/-- The select timer expires (R33). -/
def State.selectExpiry (s : State) (k : Fin 48) : State :=
  s.streamTimer k (fun v => decide (v.state = .select) && due v.selectAt s.now) fun st t =>
    let n := min 3 (st.live.attempts + 1)
    t.setStreamLive k st { st.live with
      state := .wait, format := none, selectAt := none, attempts := n
      adoptOnly := st.live.adoptOnly || decide (n = 3) }

/-- The stale timer expires (R39), deferred where the stream heeds a blanking in progress (R40). -/
def State.staleExpiry (s : State) (k : Fin 48) : State :=
  s.streamTimer k (fun v => decide (v.state = .live) && due v.staleAt s.now) fun st t =>
    if t.blanked st.entry then t.setStreamLive k st { st.live with staleAt := none, deferral := true }
    else t.enterStale k

/-- The interval timer expires (R41, R63): one expected interval is estimated and the timer starts again. -/
def State.intervalExpiry (s : State) (k : Fin 48) : State :=
  s.streamTimer k (fun v => decide (v.state = .stale) && due v.intervalAt s.now) fun st t =>
    (t.setStreamLive k st { st.live with
      intervalAt := st.live.intervalAt.map (· + st.entry.interval * 1000) }).estimate k
        (st.live.heldRate * st.entry.interval)

/-- The stream goes to LOST (R42). -/
def State.enterLost (s : State) (k : Fin 48) : State :=
  match s.stream k with
  | none => s
  | some st =>
    ((s.setStreamLive k st { st.live with state := .lost, intervalAt := none, holdAt := none }).raiseStream k
      .lost).addHeld k st.entry

/-- The hold timer expires (R42): a STALE stream goes to LOST; a deferred stream enters STALE first (R40). -/
def State.holdExpiry (s : State) (k : Fin 48) : State :=
  s.streamTimer k (fun v => (decide (v.state = .stale) || (decide (v.state = .live) && v.deferral)) &&
      due v.holdAt s.now) fun st t =>
    if st.live.state = .live then (t.enterStale k).enterLost k else t.enterLost k

/-- The streams that wait on the end of a furnace's blanking (R40). -/
def State.deferredOn (s : State) (f : Fin 4) : List (Fin 48) :=
  (List.finRange 48).filter fun k =>
    match s.stream k with
    | some st => decide (st.entry.blankingFurnace = some f ∧ st.live.state = .live) && st.live.deferral
    | none => false

/-- The end of a furnace's blanking, handed to the stream table (R90, R40): the streams that wait on it read their
items, ahead of the live sets that the event books to (R144), and enter STALE, but for one whose entry the read has
emptied (R147). -/
def State.finishBlanking (s : State) (f : Fin 4) : State :=
  let ks := s.deferredOn f
  let s1 := s.setFurnaceInput f { s.furnaceInput f with blankingEnd := none }
  ks.foldl State.enterStale (s1.touchAll (ks.map Item.stream))

/-! ### Clearing -/

/-- A stream at the accounting clear: from any state but OFF it goes to WAIT with the OFF values in every other field;
in OFF it stays as it is (R18, R28). -/
def Stream.cleared (st : Stream) : Stream :=
  if st.live.state = .off then st else { st with live := { state := .wait } }

/-- A stream at sten off (R26): the OFF values, counts kept. -/
def StreamLive.disabled (v : StreamLive) : StreamLive := { counts := v.counts }

/-- Streams that target an account and are STALE or LOST: the numbers a swap or a runa adds to its held-stream set
(R45). -/
def State.silentFor (s : State) (a : Account) : HeldSet :=
  vgen fun k =>
    match s.stream k with
    | some st => decide (st.entry.target = a ∧ (st.live.state = .stale ∨ st.live.state = .lost))
    | none => false

/-! ### Commands -/

/-- The target suits the category (R22, R25). -/
def State.targetSuits (s : State) (c : Category) (a : Account) : Bool :=
  match c, a with
  | .energy, _ => s.accountInUse a
  | .credit, _ => s.accountInUse a
  | .charge, .furnace _ => s.accountInUse a
  | .cullet, .furnace _ => s.accountInUse a
  | .gobw, .line _ => s.accountInUse a
  | _, _ => false

/-- Another loaded entry holds the same source and channel (R22). -/
def State.pairTaken (s : State) (k : Fin 48) (src : Byte) (ch : Nat) : Bool :=
  (List.finRange 48).any fun j =>
    match s.stream j with
    | some st => decide (j ≠ k ∧ st.entry.source = src ∧ st.entry.channel = ch)
    | none => false

/-- The owner's argument checks of ldst on a full set of fields (R22). -/
def State.entryOk (s : State) (k : Fin 48) (e : StreamEntry) : Bool :=
  decide (1 ≤ e.source.toNat ∧ e.source.toNat ≤ 254 ∧ e.channel ≤ 15) &&
  decide (1 ≤ e.interval ∧ e.interval ≤ 3600 ∧ 1 ≤ e.hold ∧ e.hold ≤ 1440) &&
  s.targetSuits e.category e.target &&
  (match e.category with
    | .gobw => decide (e.formats = ⟨false, false, false, true⟩)
    | _ => (e.formats.total32 || e.formats.step || e.formats.total16) && !e.formats.value &&
        decide (1 ≤ e.factor ∧ e.factor ≤ cap32 ∧ 1 ≤ e.maxRate ∧ e.maxRate ≤ 16777215)) &&
  (!e.formats.total32 || decide (2 ≤ e.modulus ∧ e.modulus ≤ 4294967296)) &&
  (!e.sensitive || (e.category.estimated &&
    match e.target with
    | .furnace _ => true
    | .line _ => false)) &&
  decide (3 * e.interval < e.hold * 60) &&
  !s.pairTaken k e.source e.channel

/-- The entry that the fields of an ldst spell, where every byte lies in its field's encoding (R171, R191). -/
def entryOf (source channel category kind target formats modulus factor maxRate interval hold sens : Nat) :
    Option StreamEntry :=
  match category? category, kind? kind, account? target, bool? sens with
  | some c, some kd, some a, some rs =>
    if formats < 16 then
      some
        { source := BitVec.ofNat 8 source, channel := channel, category := c, kind := kd, target := a
          formats := formatSetOf (BitVec.ofNat 8 formats)
          modulus := if modulus = 0 then 4294967296 else modulus
          factor := factor, maxRate := maxRate, interval := interval, hold := hold, sensitive := rs }
    else none
  | _, _, _, _ => none

/-- ldst load stream (R22, R23). Its state check reads the entry it loads and the target's configuration (R144,
R154; log 36). -/
def takeLdst (args : List Byte) (s : State) : Reply × State :=
  match fields [1, 1, 1, 1, 1, 1, 1, 4, 4, 3, 2, 2, 1] args with
  | some [k, source, channel, category, kind, target, formats, modulus, factor, maxRate, interval, hold, sens] =>
    match fin? 48 k, entryOf source channel category kind target formats modulus factor maxRate interval hold sens with
    | some k, some e =>
      if s.entryOk k e then
        let s1 := (s.touch (.stream k)).touch (.config e.target)
        if s1.enabled k then refuse .state s1
        else answer [] (((s1.setStream k (some { entry := e })).rewritten (.stream k)).unhear e.source e.channel)
      else refuse .badarg s
    | _, _ => refuse .badarg s
  | _ => refuse .badarg s

def StreamEntry.bytes (e : StreamEntry) : List Byte :=
  [e.source] ++ be 1 e.channel ++ be 1 e.category.code ++ be 1 e.kind.code ++ be 1 e.target.number ++
    be 1 e.formats.mask ++ be 4 e.modulus ++ be 4 e.factor ++ be 3 e.maxRate ++ be 2 e.interval ++ be 2 e.hold ++
    flagByte e.sensitive

/-- The whole live state in an rdst answer (R24). DESIGN CHOICE: the widths that R191 does not name, the 1 byte of the
select attempts among them, are those of log 12. -/
def StreamLive.bytes (v : StreamLive) : List Byte :=
  be 1 v.state.code ++ optBytes (fun f : Format => be 1 f.code) v.format ++ flagByte v.inferred ++
    optBytes (be 4) v.base ++ optBytes (be 1) v.lastSeq ++ optBytes (be 6) v.lastGood ++ be 6 v.heldRate ++
    be 6 (v.pending / 65536) ++ be 2 (v.pending % 65536) ++ be 2 v.remainder ++ be 1 v.attempts ++
    flagByte v.adoptOnly ++ flagByte v.deferral ++ be 4 v.counts.jumps ++ be 4 v.counts.formatFaults ++
    be 4 v.counts.repeats ++ be 4 v.counts.gaps ++ be 4 v.counts.weightHolds

/-- The greatest base of a stream in a format (02, 03): a total below its modulus, or a 16-bit value. -/
def StreamEntry.baseLimit (e : StreamEntry) : Option Format → Nat
  | some .total32 => e.modulus - 1
  | some _ => 65535
  | none => cap32

/-- The fields of an entry as read at an uncorrectable fault: one out of range takes the least value of its range, as
an empty entry has no power-on value (R146, R147). -/
def StreamEntry.sanitized (e : StreamEntry) : StreamEntry :=
  { e with
    source := if e.source = 0#8 ∨ e.source = 255#8 then 1#8 else e.source
    channel := inRange 0 15 e.channel 0
    modulus := inRange 2 4294967296 e.modulus 2
    factor := inRange 1 cap32 e.factor 1
    maxRate := inRange 1 16777215 e.maxRate 1
    interval := inRange 1 3600 e.interval 1
    hold := inRange 1 1440 e.hold 1 }

def StreamCounts.sanitized (c : StreamCounts) : StreamCounts :=
  { jumps := inRange 0 cap32 c.jumps 0
    formatFaults := inRange 0 cap32 c.formatFaults 0
    repeats := inRange 0 cap32 c.repeats 0
    gaps := inRange 0 cap32 c.gaps 0
    weightHolds := inRange 0 cap32 c.weightHolds 0 }

/-- A live state as read with entry `e` at an uncorrectable fault: a field out of its range, which for the base and the
held rate the format and the entry give, takes its power-on value (R28, R146): absent, none or 0. -/
def StreamLive.sanitized (v : StreamLive) (e : StreamEntry) : StreamLive :=
  { v with
    base := v.base.filter fun x => decide (x ≤ e.baseLimit v.format)
    lastSeq := v.lastSeq.filter fun x => decide (x ≤ 255)
    lastGood := v.lastGood.filter fun x => decide (x ≤ cap48)
    heldRate := inRange 0 (e.maxRate * 65536) v.heldRate 0
    pending := inRange 0 pendingCap v.pending 0
    remainder := inRange 0 65535 v.remainder 0
    attempts := inRange 0 3 v.attempts 0
    counts := v.counts.sanitized }

/-- A loaded stream's values as read at an uncorrectable fault (R146, R147). -/
def Stream.sanitized (st : Stream) : Stream :=
  { entry := st.entry.sanitized, live := st.live.sanitized st.entry.sanitized }

/-- rdst read stream (R24): a presence byte, then the entry and live state of a loaded entry, as read (R147). An empty
entry is not read (R154). -/
def takeRdst (args : List Byte) (s : State) : Reply × State :=
  match fields [1] args with
  | some [k] =>
    match fin? 48 k with
    | some k =>
      match s.stream k with
      | none => answer [0#8] s
      | some st =>
        let asRead := if 2 ≤ s.errorsIn (.stream k) then st.sanitized else st
        answer (1#8 :: (asRead.entry.bytes ++ asRead.live.bytes)) (s.touch (.stream k))
    | none => refuse .badarg s
  | _ => refuse .badarg s

/-- The read that sten makes of a loaded entry (R144, R154). -/
def State.touchLoaded (s : State) (k : Fin 48) : State :=
  match s.stream k with
  | some _ => s.touch (.stream k)
  | none => s

/-- sten enable stream (R25, R26). -/
def takeSten (args : List Byte) (s : State) : Reply × State :=
  match fields [1, 1] args with
  | some [k, on] =>
    match fin? 48 k, bool? on with
    | some k, some on =>
      let s1 := s.touchLoaded k
      match s1.stream k with
      | none => if on then refuse .state s1 else answer [] s1
      | some st =>
        if on then
          if s1.targetSuits st.entry.category st.entry.target then
            if st.live.state = .off then
              answer [] ((s1.setStreamLive k st { state := .wait, counts := st.live.counts }).unhear st.entry.source
                st.entry.channel)
            else answer [] s1
          else refuse .state s1
        else if st.live.state = .off then answer [] s1
        else answer [] (s1.setStreamLive k st st.live.disabled)
    | _, _ => refuse .badarg s
  | _ => refuse .badarg s

def Heard.bytes (h : Heard) : List Byte := [h.source] ++ be 1 h.channel ++ [h.kind] ++ be 6 h.time

/-- lstn list heard (R49). -/
def takeLstn (args : List Byte) (s : State) : Reply × State :=
  match fields [] args with
  | some [] => answer (listBytes Heard.bytes s.heard) s
  | _ => refuse .badarg s

end Sys2Proof.Machine
end

