-- ==== Sys2Proof/Machine/Tally.lean ====
section
/-! DEFINITION. The tally inputs (04): filters and tracking, cuts, rejects, the running condition, second marks,
reversals and blanking. -/

namespace Sys2Proof.Machine

/-! ### Filters (R75, R76) -/

/-- A line's inputs are tracked: the line is not UNUSED and the part is not in PASS (R76). -/
def State.lineTracked (s : State) (l : Fin 8) : Bool := s.assigned l && decide (s.run ≠ .pass)

/-- A furnace's REV input is tracked: the furnace is DEFINED and the part is not in PASS (R76). -/
def State.furnaceTracked (s : State) (f : Fin 4) : Bool := (s.furnaceCfg f).defined && decide (s.run ≠ .pass)

/-- A pending change whose pin has held the other level for the whole hold time (R75). -/
def Filter.ripe (x : Filter) (hold now : Nat) : Bool :=
  match x.since with
  | none => false
  | some t => decide (t + hold ≤ now)

/-- The filter after its pin takes a level: a change starts where the level differs from the filtered one, and is
dropped where the pin returns before the hold time has passed (R75). -/
def Filter.sense (x : Filter) (pin : Bool) (hold now : Nat) : Filter :=
  if pin = x.level then (if x.ripe hold now then x else { x with since := none })
  else
    match x.since with
    | none => { x with since := some now }
    | some _ => x

/-- The filter after a level change: the other level, and a new pending change where the pin has left it already. -/
def Filter.flip (x : Filter) (pin : Bool) (now : Nat) : Filter :=
  { level := !x.level, since := if pin = !x.level then none else some now }

/-- A tracked input has a level change to `level` due (R75). -/
def levelDue (x : Option Filter) (level : Bool) (hold now : Nat) : Bool :=
  match x with
  | none => false
  | some f => decide (f.level = !level) && f.ripe hold now

/-- Tracking starts: the filtered level takes the pin's level, with no pending change (R76). -/
def Filter.started (pin : Bool) : Option Filter := some { level := pin }

/-- A line's input state at a start of tracking: STOPPED, no last cut time, no previous cut set; the other fields as
they stand (R76, R6, R80; log 20). -/
def State.startLine (s : State) (l : Fin 8) : State :=
  let x := s.lineInput l
  s.setLineInput l { x with
    cut := Filter.started (vget s.pins.cut l)
    rej := Filter.started (vget s.pins.rej l)
    div := Filter.started (vget s.pins.div l)
    lastCut := none
    stopAt := none
    running := false
    prevSet := .none }

/-- A line's tracking stops, and the line reads STOPPED (R76, R7; log 20). -/
def State.stopLine (s : State) (l : Fin 8) : State :=
  let x := s.lineInput l
  s.setLineInput l { x with cut := none, rej := none, div := none, stopAt := none, running := false }

/-- A furnace's tracking starts (R76). -/
def State.startFurnace (s : State) (f : Fin 4) : State :=
  s.setFurnaceInput f { s.furnaceInput f with rev := Filter.started (vget s.pins.rev f) }

/-- Tracking of every assigned line and defined furnace starts, outside PASS (R76, R91); it is applied to input state
without filters. -/
def State.startTracking (s : State) : State :=
  let s1 := (List.finRange 8).foldl (fun t l => if t.lineTracked l then t.startLine l else t) s
  (List.finRange 4).foldl (fun t f => if t.furnaceTracked f then t.startFurnace f else t) s1

/-- The level of a pin. -/
def Pins.get (p : Pins) : Pin → Bool
  | .cut l => vget p.cut l
  | .rej l => vget p.rej l
  | .div l => vget p.div l
  | .rev f => vget p.rev f

/-- The level of a pin replaced. -/
def Pins.put (p : Pins) (x : Pin) (b : Bool) : Pins :=
  match x with
  | .cut l => { p with cut := vset p.cut l b }
  | .rej l => { p with rej := vset p.rej l b }
  | .div l => { p with div := vset p.div l b }
  | .rev f => { p with rev := vset p.rev f b }

/-- A change of a pin's level (R75): the pin takes the level, and its filter, where tracked, senses it. -/
def State.pinChange (s : State) (x : Pin) (b : Bool) : State :=
  let s1 := { s with pins := s.pins.put x b }
  match x with
  | .cut l => s1.setLineInput l { s.lineInput l with
      cut := (s.lineInput l).cut.map fun f => f.sense b Config.pinHold s.now }
  | .rej l => s1.setLineInput l { s.lineInput l with
      rej := (s.lineInput l).rej.map fun f => f.sense b Config.pinHold s.now }
  | .div l => s1.setLineInput l { s.lineInput l with
      div := (s.lineInput l).div.map fun f => f.sense b Config.pinHold s.now }
  | .rev f => s1.setFurnaceInput f { s.furnaceInput f with
      rev := (s.furnaceInput f).rev.map fun x => x.sense b Config.revHold s.now }

/-! ### Cuts and rejects -/

/-- The mass of a line live set field, and its SAT, after `t` tenths (R9, R79). -/
def LineLive.addFormed (x : LineLive) (t : Nat) : LineLive :=
  { x with
    formed := x.formed.add t
    base := { x.base with flags := x.base.flags.saturated (x.formed.overflows t) } }
def LineLive.addDiverted (x : LineLive) (t : Nat) : LineLive :=
  { x with
    diverted := x.diverted.add t
    base := { x.base with flags := x.base.flags.saturated (x.diverted.overflows t) } }
def LineLive.addRejected (x : LineLive) (t : Nat) : LineLive :=
  { x with
    rejected := x.rejected.add t
    base := { x.base with flags := x.base.flags.saturated (x.rejected.overflows t) } }

/-- An interval entered into the minimum and maximum cut interval (R79). -/
def enterInterval (i : Nat) : Option (Nat × Nat) → Option (Nat × Nat)
  | none => some (i, i)
  | some (lo, hi) => some (min lo i, max hi i)

/-- An accepted cut booked into a line's live set (R79): `mass` tenths go to diverted or formed mass by the diverter
level; the measured interval is entered where the previous booked cut landed in this same set. -/
def LineLive.bookCut (x : LineLive) (mass : Nat) (over2 : Bool) (interval : Option Nat) (same : Bool) : LineLive :=
  let y := if over2 then { x.addDiverted mass with divertedCuts := bump x.divertedCuts } else x.addFormed mass
  { y with
    cuts := bump x.cuts
    cutIntervals := match interval with
      | some i => if same then enterInterval i x.cutIntervals else x.cutIntervals
      | none => x.cutIntervals }

/-- The interval that an accepted cut measures (R78 step 1). -/
def LineInput.cutInterval (x : LineInput) (now : Nat) : Option Nat :=
  if x.running then x.lastCut.map fun t => min 65535 (now - t) else none

/-- A line's input state after an accepted cut (R78). -/
def LineInput.accepted (x : LineInput) (timeout now : Nat) : LineInput :=
  { x with
    lastInterval := x.cutInterval now
    lastCut := some now
    stopAt := some (now + timeout * 1000)
    running := true }

/-- The DIV input's filtered level is HIGH (R79, R81). -/
def LineInput.diverted (x : LineInput) : Bool :=
  match x.div with
  | some f => f.level
  | none => false

/-- The CUT edge is far enough from the last accepted cut (R77). -/
def LineInput.cutAccepted (x : LineInput) (spacing now : Nat) : Bool :=
  match x.lastCut with
  | none => true
  | some t => decide (t + spacing ≤ now)

/-- The booking of an accepted cut in RUN (R79, R73), after the event's reads of streams and configuration. -/
def State.bookCut (s : State) (l : Fin 8) (interval : Option Nat) (ks : List (Fin 48)) : State :=
  let s1 := s.touch (.live (.line l))
  let i := s1.lineInput l
  let x := (s1.lLive l).bookCut ((s1.job l).gobs * (s1.job l).weight) i.diverted interval
    (decide (i.prevSet = .current))
  ((s1.setLLive l x).setLineInput l { i with prevSet := .current }).cutRequest l ks

/-- A rising edge of CUT on a tracked line (R77 to R79): a cut, or a bounce against the minimum cut spacing. The
event's reads come in the order of R144: in RUN the GOBW streams of the line, then its configuration, then its live
set. -/
def State.cutRise (s : State) (l : Fin 8) : State :=
  let accepted := (s.lineInput l).cutAccepted (s.lineAsRead l).spacing s.now
  let ks := s.gobStreams l
  let s1 := if accepted ∧ s.run = .run then s.touchAll (ks.map Item.stream) else s
  let s2 := s1.touch (.config (.line l))
  let x := s2.lineInput l
  if accepted then
    let s3 := s2.setLineInput l (x.accepted (s2.lineCfg l).timeout s2.now)
    if s3.run = .run then s3.bookCut l (x.cutInterval s2.now) ks else s3
  else s2.setLineInput l { x with cutBounces := bump x.cutBounces }

/-- CUT_EDGE (R75, R77): the filtered level of CUT goes HIGH where a change to it is due. -/
def State.cutEdge (s : State) (l : Fin 8) : State :=
  if s.lineTracked l ∧ levelDue (s.lineInput l).cut true Config.pinHold s.now then
    (s.setLineInput l { s.lineInput l with
      cut := (s.lineInput l).cut.map fun f => f.flip (vget s.pins.cut l) s.now }).cutRise l
  else s

/-- The REJ edge is far enough from the last accepted reject (R82). -/
def LineInput.rejectAccepted (x : LineInput) (now : Nat) : Bool :=
  match x.lastReject with
  | none => true
  | some t => decide (t + Config.rejectSpacing ≤ now)

/-- A rising edge of REJ on a tracked line (R82, R83): a reject, or a bounce within 5 ms. -/
def State.rejectRise (s : State) (l : Fin 8) : State :=
  let x := s.lineInput l
  if x.rejectAccepted s.now then
    let s1 := s.setLineInput l { x with lastReject := some s.now }
    if s1.run = .run then
      let s2 := (s1.touch (.config (.line l))).touch (.live (.line l))
      let y := s2.lLive l
      s2.setLLive l { y.addRejected (s2.job l).weight with rejectWare := bump y.rejectWare }
    else s1
  else s.setLineInput l { x with rejectBounces := bump x.rejectBounces }

/-- REJ_EDGE (R75, R82). -/
def State.rejEdge (s : State) (l : Fin 8) : State :=
  if s.lineTracked l ∧ levelDue (s.lineInput l).rej true Config.pinHold s.now then
    (s.setLineInput l { s.lineInput l with
      rej := (s.lineInput l).rej.map fun f => f.flip (vget s.pins.rej l) s.now }).rejectRise l
  else s

/-- FALLING_EDGE (R75, R77, R82): the filtered level of CUT or REJ goes LOW where a change to it is due; nothing else
happens. -/
def State.fallingEdge (s : State) : EdgePin → State
  | .cut l =>
    if s.lineTracked l ∧ levelDue (s.lineInput l).cut false Config.pinHold s.now then
      s.setLineInput l { s.lineInput l with
        cut := (s.lineInput l).cut.map fun f => f.flip (vget s.pins.cut l) s.now }
    else s
  | .rej l =>
    if s.lineTracked l ∧ levelDue (s.lineInput l).rej false Config.pinHold s.now then
      s.setLineInput l { s.lineInput l with
        rej := (s.lineInput l).rej.map fun f => f.flip (vget s.pins.rej l) s.now }
    else s

/-- DIV_LEVEL_CHANGE (R75, R81): the filtered level of DIV changes where a change is due. -/
def State.divChange (s : State) (l : Fin 8) : State :=
  if s.lineTracked l ∧ (levelDue (s.lineInput l).div true Config.pinHold s.now ∨
      levelDue (s.lineInput l).div false Config.pinHold s.now) then
    s.setLineInput l { s.lineInput l with
      div := (s.lineInput l).div.map fun f => f.flip (vget s.pins.div l) s.now }
  else s

/-! ### The running condition -/

/-- The stop timer expires (R84): the line becomes STOPPED. A RUNNING line's timer that is due alone expires (log 7). -/
def State.stopExpiry (s : State) (l : Fin 8) : State :=
  if s.run ≠ .pass ∧ (s.lineInput l).running ∧ due (s.lineInput l).stopAt s.now then
    let s1 := s.touch (.config (.line l))
    s1.setLineInput l { s1.lineInput l with running := false, stopAt := none }
  else s

/-- The stop timer of a RUNNING line is measured anew against the stop timeout in the line's configuration (R85). -/
def State.retime (s : State) (l : Fin 8) : State :=
  let x := s.lineInput l
  match x.running, x.lastCut with
  | true, some t =>
    let e := t + (s.lineCfg l).timeout * 1000
    if e ≤ s.now then s.setLineInput l { x with running := false, stopAt := none }
    else s.setLineInput l { x with stopAt := some e }
  | _, _ => s

/-- One second added to a line's running or stopped seconds (R86). -/
def State.accrueSecond (s : State) (l : Fin 8) : State :=
  if s.assigned l then
    let s1 := s.touch (.live (.line l))
    let x := s1.lLive l
    if (s1.lineInput l).running then s1.setLLive l { x with runningSeconds := bump x.runningSeconds }
    else s1.setLLive l { x with stoppedSeconds := bump x.stoppedSeconds }
  else s

/-- SECOND_MARK (R86): the second mark of the present millisecond, once. -/
def State.secondMark (s : State) : State :=
  if s.clock.secondDue then
    let s1 := { s with clock := { s.clock with secondDue := false } }
    if s1.run = .run then (List.finRange 8).foldl State.accrueSecond s1 else s1
  else s

/-! ### Reversals and blanking -/

/-- The reversal interval, whole seconds rounded up (R88 step 1). -/
def FurnaceInput.interval (x : FurnaceInput) (now : Nat) : Option Nat :=
  x.lastReversal.map fun t => min cap32 ((now - t + 999) / 1000)

/-- A settled change of REV on a tracked furnace (R88 to R90). Where the blanking time is 0 s a blanking in progress
ends at this event; the streams that wait on it are read before the configuration (R144). -/
def State.reverse (s : State) (f : Fin 4) : State :=
  let ends := decide ((s.furnaceAsRead f).blanking = 0) && s.inBlanking f
  let s1 := if ends then s.touchAll ((s.deferredOn f).map Item.stream) else s
  let s2 := s1.touch (.config (.furnace f))
  let x := s2.furnaceInput f
  let i := x.interval s2.now
  let s3 := s2.setFurnaceInput f { x with lastReversal := some s2.now }
  let b := (s3.furnaceCfg f).blanking
  let s4 :=
    if 0 < b then s3.setFurnaceInput f { s3.furnaceInput f with blankingEnd := some (s3.now + b * 1000) }
    else if ends then s3.finishBlanking f
    else s3
  if s4.run = .run then
    let s5 := s4.touch (.live (.furnace f))
    let y := s5.fLive f
    s5.setFLive f { y with reversals := bump y.reversals, lastReversal := i.getD y.lastReversal }
  else s4

/-- REVERSAL (R75, R88): a level change of REV that is due, in either direction. -/
def State.revEdge (s : State) (f : Fin 4) : State :=
  if s.furnaceTracked f ∧ (levelDue (s.furnaceInput f).rev true Config.revHold s.now ∨
      levelDue (s.furnaceInput f).rev false Config.revHold s.now) then
    (s.setFurnaceInput f { s.furnaceInput f with
      rev := (s.furnaceInput f).rev.map fun x => x.flip (vget s.pins.rev f) s.now }).reverse f
  else s

/-- END_OF_BLANKING (R90): the elapsed base has reached the end time. -/
def State.blankingExpiry (s : State) (f : Fin 4) : State :=
  if s.run ≠ .pass ∧ due (s.furnaceInput f).blankingEnd s.now then s.finishBlanking f else s

/-- The input state of every line and furnace at the accounting clear (R18, R91), before tracking restarts. -/
def State.clearInputs (s : State) : State :=
  { s with lineInputs := Vector.replicate 8 {}, furnaceInputs := Vector.replicate 4 {} }

end Sys2Proof.Machine
end

