-- ==== Sys2Proof/Machine/Close.lean ====
section
/-! DEFINITION. The close engine (06): the swap, its triggers and deferral, the close computation, and the commands
that trigger swaps: clos, sett and adjt. -/

namespace Sys2Proof.Machine

/-! ### The swap -/

/-- The threshold and band that a swap copies (R12, R108 step 2). -/
def FurnaceConfig.limits (c : FurnaceConfig) : Limits :=
  { lowMass := c.lowMass, bandLow := c.bandLow, bandHigh := c.bandHigh }
def LineConfig.limits (c : LineConfig) : Limits :=
  { lowMass := c.lowMass, bandLow := c.bandLow, bandHigh := c.bandHigh }

/-- The configuration items of a group's accounts (R108 step 2, R144). -/
def State.configItems (s : State) (g : Fin 4) : List Item :=
  Item.config (.furnace g) :: (s.linesOf g).map fun l => Item.config (.line l)

/-- The line is in the group. -/
def State.inGroup (s : State) (g : Fin 4) (l : Fin 8) : Bool := decide ((s.lineCfg l).furnace = some g)

/-- The configuration-fault marks that the check unit holds for a group's accounts (R148). -/
def State.groupMarked (s : State) (g : Fin 4) : Bool :=
  vget s.check.furnaceMarks g || (s.linesOf g).any fun l => vget s.check.lineMarks l

/-- The closing set of a swap (R12, R108 steps 1 and 2). -/
def State.closingOf (s : State) (g : Fin 4) (cause : Cause) : ClosingSet :=
  { furnace := s.fLive g
    limits := (s.furnaceCfg g).limits
    lines := (s.linesOf g).map fun l => { line := l, live := s.lLive l, limits := (s.lineCfg l).limits }
    halted := decide (s.run = .halt)
    cause := cause
    period := (s.group g).period
    stop := s.stamp
    configFault := s.groupMarked g }

/-- The shared part of a fresh live set of account `a` (R108 step 3, R45): the silent streams are held. DEDUCED: at a
swap in HALT too, as R108 says of each swap; that no number is added in HALT (R11, R44) is taken of the sets as they
stand, not of the fresh ones as they begin (log 13). -/
def State.freshBase (s : State) (a : Account) : LiveBase := { held := s.silentFor a, start := s.stamp }

/-- The period number after a swap (R109). -/
def nextPeriod (p : Nat) : Nat := if cap32 ≤ p then 1 else p + 1

/-- A line's previous cut set after its live set has gone into a closing set (R80, R108). -/
def CutSet.swapped : CutSet → CutSet
  | .current => .closed
  | x => x

/-- The item belongs to the live set or the closing set of the group: a swap writes it (R145). -/
def State.swapWrites (s : State) (g : Fin 4) : Item → Bool
  | .live (.furnace f) => decide (f = g)
  | .live (.line l) => s.inGroup g l
  | .closing (.furnace f) => decide (f = g)
  | .closing (.line l) => s.inGroup g l
  | _ => false

/-- The swap after its reads (R108 steps 1 to 5). -/
def State.swapFill (s : State) (g : Fin 4) (cause : Cause) : State :=
  { s with
    check := { s.check with
      furnaceMarks := vset s.check.furnaceMarks g false
      lineMarks := vgen fun l => vget s.check.lineMarks l && !s.inGroup g l }
    furnaceLive := vset s.furnaceLive g { base := s.freshBase (.furnace g) }
    lineLive := vgen fun l => if s.inGroup g l then { base := s.freshBase (.line l) } else s.lLive l
    lineInputs := vgen fun l =>
      if s.inGroup g l then { s.lineInput l with prevSet := (s.lineInput l).prevSet.swapped } else s.lineInput l
    groups := vset s.groups g
      { s.group g with closing := some (s.closingOf g cause), period := nextPeriod (s.group g).period }
    latent := s.latent.filter fun p => !s.swapWrites g p.1 }

/-- The swap of a group (R108): the held-stream scan and the copy of thresholds and bands read their items first
(R144, R148). -/
def State.swap (s : State) (g : Fin 4) (cause : Cause) : State :=
  (s.touchAll (s.loadedItems ++ s.configItems g)).swapFill g cause

/-! ### Triggers -/

/-- Closes are taken in RUN and in HALT (R14). -/
def State.closes (s : State) : Bool := decide (s.run = .run ∨ s.run = .halt)

/-- A mark or timed boundary taken by a group: a swap, or a deferral while the group is CLOSING (R105 to R107). -/
def State.trigger (s : State) (g : Fin 4) (cause : Cause) : State :=
  if s.isClosing g then s.setGroup g { s.group g with deferred := true } else s.swap g cause

/-- clos close period (R104). -/
def takeClos (args : List Byte) (s : State) : Reply × State :=
  match fields [1] args with
  | some [g] =>
    match fin? 4 g with
    | some g =>
      if !(s.furnaceCfg g).defined then refuse .badarg s
      else if !s.closes then refuse .state s
      else if s.isClosing g then refuse .busy s
      else answer (be 4 (s.group g).period) (s.swap g .command)
    | none => refuse .badarg s
  | _ => refuse .badarg s

/-- A group takes a mark from a source (R105), by its furnace's configuration as read. -/
def State.markSuits (s : State) (src : Byte) (g : Fin 4) : Bool :=
  let c := s.furnaceAsRead g
  c.defined && decide (c.mode ≠ .timed) && decide (c.markSource ≠ 0) && decide (c.markSource = src.toNat)

/-- A mark frame at the close engine (R105, R190). The event reads the streams where some group swaps, then the
configuration of each defined furnace named (R144, log 16). -/
def State.takeMark (s : State) (src : Byte) (payload : List Byte) : State :=
  match payload with
  | [] => s
  | mask :: _ =>
    if s.closes then
      let named := (List.finRange 4).filter fun g => mask.getLsbD g.val && (s.furnaceCfg g).defined
      let takers := named.filter (s.markSuits src)
      let s1 := if takers.any fun g => !s.isClosing g then s.touchAll s.loadedItems else s
      let s2 := s1.touchAll (named.map fun g => Item.config (.furnace g))
      takers.foldl (fun t g => t.trigger g .mark) s2
    else s

/-- A timed boundary handed to the close engine (R106). -/
def State.timedBoundary (s : State) (g : Fin 4) : State := if s.closes then s.trigger g .timed else s

/-- A boundary event: the timed boundary, then the next boundary (R99). -/
def State.boundaryReached (s : State) (g : Fin 4) : State := (s.timedBoundary g).computeBoundary g

/-- A group's next boundary is present, and plant time has reached it (R99, R100). -/
def State.boundaryDue (s : State) (g : Fin 4) : Bool := due (s.boundary g) s.clock.sec

/-- BOUNDARY_EVENT (R99): acts where plant time has reached the group's next boundary (log 7). -/
def State.boundaryEvent (s : State) (g : Fin 4) : State := if s.boundaryDue g then s.boundaryReached g else s

/-- One group at a jump of plant time: a boundary event where the boundary that stood before is reached, else the next
boundary computed anew (R100). -/
def State.jumpGroup (s : State) (g : Fin 4) : State :=
  if s.boundaryDue g then s.boundaryReached g else s.computeBoundary g

/-- A jump of plant time (R95, R96, R100): the time, the TIME-ADJUSTED marks, then the boundaries of every group. The
held-stream scan reads first where some group swaps (R144). -/
def State.jump (s : State) (sec ms : Nat) : State :=
  let s1 := { s with clock := { s.clock with sec := sec, ms := ms, timeSet := true } }.markAdjusted
  let swaps := s1.closes && (List.finRange 4).any fun g => s1.boundaryDue g && !s1.isClosing g
  (List.finRange 4).foldl State.jumpGroup (if swaps then s1.touchAll s1.loadedItems else s1)

/-- sett set time (R95). -/
def takeSett (args : List Byte) (s : State) : Reply × State :=
  match fields [4, 2] args with
  | some [sec, ms] => if ms ≤ 999 then answer [] (s.jump sec ms) else refuse .badarg s
  | _ => refuse .badarg s

/-- Plant time in milliseconds plus an offset. -/
def Clock.shifted (c : Clock) (offset : Int) : Int := ((c.sec * 1000 + c.ms : Nat) : Int) + offset

/-- adjt adjust time (R96). -/
def takeAdjt (args : List Byte) (s : State) : Reply × State :=
  match fields [4] args with
  | some [o] =>
    let offset := signed32 o
    let t := s.clock.shifted offset
    if offset < -86400000 ∨ 86400000 < offset then refuse .badarg s
    else if !s.clock.timeSet then refuse .state s
    else if t < 0 ∨ 4294967295999 < t then refuse .badarg s
    else answer [] (s.jump (t.toNat / 1000) (t.toNat % 1000))
  | _ => refuse .badarg s

/-- PLANT_SECONDS_WRAP (R93, R100): acts where plant seconds have wrapped in the present millisecond (log 19). -/
def State.plantWrap (s : State) : State :=
  if s.clock.wrapDue then
    (List.finRange 4).foldl State.computeBoundary { s with clock := { s.clock with wrapDue := false } }
  else s

/-! ### The close computation -/

/-- The net of an account before it is clamped (R111 steps 1 and 2). -/
def LiveBase.netExact (b : LiveBase) : Int := (b.energy.sum : Int) - (b.credit : Int) + b.correction

/-- The clamped net (R111 steps 3 and 4). -/
def LiveBase.net (b : LiveBase) : Nat := min b.netExact.toNat cap48

/-- The net was clamped from above (R111 step 4). -/
def LiveBase.netOver (b : LiveBase) : Bool := decide ((cap48 : Int) < b.netExact)

/-- The net was clamped from below (R111 step 3). -/
def LiveBase.netBelow (b : LiveBase) : Bool := decide (b.netExact < 0)

/-- Pulled mass of a line (R112). -/
def LineLive.pulled (x : LineLive) : Nat := min (x.formed.grams + x.diverted.grams) cap48

/-- The pulled mass was clamped (R112). -/
def LineLive.pulledOver (x : LineLive) : Bool := decide (cap48 < x.formed.grams + x.diverted.grams)

/-- The diverted mass of the line entry (R112). -/
def LineLive.divertedMass (x : LineLive) : Nat :=
  if x.pulledOver then x.pulled - x.formed.grams else x.diverted.grams

/-- Packed mass of a line (R112). -/
def LineLive.packed (x : LineLive) : Nat := x.formed.grams - x.rejected.grams

/-- REJ>FORM (R112). -/
def LineLive.rejOver (x : LineLive) : Bool := decide (x.formed.grams < x.rejected.grams)

/-- The quotients of the apportionment of `en` over the masses `ms` (R114). -/
def quotients (en : Nat) (ms : List Nat) : List Nat := ms.map fun m => en * m / ms.sum

/-- The remainders of the apportionment (R114). -/
def remainders (en : Nat) (ms : List Nat) : List Nat := ms.map fun m => en * m % ms.sum

/-- The leftover of the apportionment (R114). -/
def leftover (en : Nat) (ms : List Nat) : Nat := en - (quotients en ms).sum

/-- How many lines are ranked before entry `i`: those with a larger remainder, and the earlier ones with an equal one
(R115). -/
def rankOf (rs : List Nat) (i : Nat) : Nat :=
  (rs.take i).countP (fun r => decide (rs.getD i 0 ≤ r)) +
    (rs.drop (i + 1)).countP fun r => decide (rs.getD i 0 < r)

/-- The shares of `en` over the masses `ms`, in order (R114 to R116). -/
def shares (en : Nat) (ms : List Nat) : List Nat :=
  if ms.sum = 0 then ms.map fun _ => 0
  else
    (quotients en ms).mapIdx fun i q =>
      q + if rankOf (remainders en ms) i < leftover en ms then 1 else 0

/-- The cullet per mille (R120). -/
def culletPerMille (charge cullet : Nat) : Option Nat :=
  if charge + cullet = 0 then none
  else some ((2000 * cullet + (charge + cullet)) / (2 * (charge + cullet)))

/-- A line entry from the line's closing figures and its share (R112, R117, R119, R130). -/
def lineEntry (c : ClosingLine) (share : Nat) : LineEntry :=
  let x := c.live
  let total := min (x.base.net + share) cap48
  { line := c.line
    energy := x.base.energy
    credit := x.base.credit
    estimated := x.base.estimated
    correction := x.base.correction
    net := x.base.net
    share := share
    total := total
    cuts := x.cuts
    divertedCuts := x.divertedCuts
    pulled := x.pulled
    diverted := x.divertedMass
    formed := x.formed.grams
    rejected := x.rejected.grams
    packed := x.packed
    rejectWare := x.rejectWare
    runningSeconds := x.runningSeconds
    stoppedSeconds := x.stoppedSeconds
    jobChanges := x.jobChanges
    weightHolds := x.weightHolds
    cutIntervals := x.cutIntervals
    pull := ratioItem total x.pulled c.limits.lowMass false
    pack := ratioItem total x.packed c.limits.lowMass x.rejOver
    held := x.base.held }

/-- The pulled masses of a closing set's lines. -/
def ClosingSet.masses (c : ClosingSet) : List Nat := c.lines.map fun x => x.live.pulled

/-- M, exact (R113). -/
def ClosingSet.pulled (c : ClosingSet) : Nat := c.masses.sum

/-- En, the furnace net (R111). -/
def ClosingSet.net (c : ClosingSet) : Nat := c.furnace.base.net

/-- The line entries of a close, in line order (R114 to R119). -/
def ClosingSet.entries (c : ClosingSet) : List LineEntry :=
  (c.lines.zip (shares c.net c.masses)).map fun p => lineEntry p.1 p.2

/-- The live sets of a closing set, as their shared parts. -/
def ClosingSet.bases (c : ClosingSet) : List LiveBase := c.furnace.base :: c.lines.map fun x => x.live.base

/-- The record's SAT flag (R122). -/
def ClosingSet.saturates (c : ClosingSet) : Bool :=
  (c.bases.any fun b => b.flags.sat || b.netOver) || (c.lines.any fun x => x.live.pulledOver) ||
    decide (cap48 < c.pulled) ||
    (c.lines.zip (shares c.net c.masses)).any fun p => decide (cap48 < p.1.live.base.net + p.2)

/-- The record flags of a close, OVERWROTE apart (R122). -/
def ClosingSet.flags (c : ClosingSet) : RecordFlags :=
  { timeAdjusted := c.bases.any fun b => b.flags.timeAdjusted
    overwrote := false
    sat := c.saturates
    negnet := c.bases.any LiveBase.netBelow
    suspect := (c.bases.any fun b => b.flags.suspect) || c.configFault
    halted := c.halted }

/-- The furnace part of the record (R111, R113, R116, R119, R120, R129). -/
def ClosingSet.furnacePart (c : ClosingSet) : FurnacePart :=
  let x := c.furnace
  { energy := x.base.energy
    credit := x.base.credit
    estimated := x.base.estimated
    correction := x.base.correction
    net := c.net
    charge := x.charge
    cullet := x.cullet
    pulled := min c.pulled cap48
    unallotted := if c.pulled = 0 then some c.net else none
    perMille := culletPerMille x.charge x.cullet
    reversals := x.reversals
    lastReversal := x.lastReversal
    melt := ratioItem c.net c.pulled c.limits.lowMass false
    held := x.base.held }

/-- The group record of a close (R123 step 1, R128). -/
def ClosingSet.record (c : ClosingSet) (g : Fin 4) : GroupRecord :=
  { group := g
    period := c.period
    start := c.furnace.base.start
    stop := c.stop
    duration := c.stop.elapsed - c.furnace.base.start.elapsed
    cause := c.cause
    flags := c.flags
    furnace := c.furnacePart
    lines := c.entries
    ratio := ratioItem (c.net + (c.entries.map (·.net)).sum) (c.entries.map (·.packed)).sum c.limits.lowMass false }

/-- The furnace is out of band (R121). -/
def ClosingSet.furnaceOut (c : ClosingSet) : Bool := c.furnacePart.melt.outOfBand c.limits

/-- The lines out of band (R121). -/
def ClosingSet.linesOut (c : ClosingSet) : List (Fin 8) :=
  ((c.lines.zip c.entries).filter fun p => p.2.pull.outOfBand p.1.limits || p.2.pack.outOfBand p.1.limits).map
    fun p => p.1.line

end Sys2Proof.Machine
end

