-- ==== Sys2Proof/Machine/Records.lean ====
section
/-! DEFINITION. The record queue, the running totals and the snapshot buffer (07), the completion event of a close
(R123, R124), and the commands take, look, rdtt, snap and rdsn with their layouts (R192, R193). -/

namespace Sys2Proof.Machine

/-! ### The record queue -/

/-- A QUEUE item once the record at position `i` has left: none for that record, one nearer the oldest for those
behind it (R153). -/
def Item.afterRemoval (i : Nat) : Item → Option Item
  | .queue j => if j = i then none else if i < j then some (.queue (j - 1)) else some (.queue j)
  | it => some it

/-- The record at position `i` leaves the queue. An injection armed on it is disarmed; one armed on a record behind it
follows its record (R153, R154). -/
def State.removeRecord (s : State) (i : Nat) : State :=
  { s with
    records := s.records.eraseIdx i
    check := { s.check with
      armed := s.check.armed.bind fun j => (j.item.afterRemoval i).map fun it => { j with item := it } }
    latent := s.latent.filterMap fun p => (p.1.afterRemoval i).map fun it => (it, p.2) }

/-- A record discarded unread: it leaves, and the lost count grows, staying at its limit (R132). -/
def State.discardRecord (s : State) (i : Nat) : State :=
  let s1 := s.removeRecord i
  { s1 with lost := satAdd cap16 s1.lost 1 }

/-- The positions of queued records that R132 step 1 discards, from the newest. -/
def State.outOfOrder (s : State) (r : GroupRecord) : List Nat :=
  ((List.range s.records.length).filter fun i =>
    match s.records[i]? with
    | some x => decide (x.group = r.group ∧ r.period ≤ x.period)
    | none => false).reverse

/-- The append of a record (R132). -/
def State.appendRecord (s : State) (r : GroupRecord) : State :=
  let doomed := s.outOfOrder r
  let s1 := doomed.foldl State.discardRecord s
  let full := decide (Config.queueRecords ≤ s1.records.length)
  let s2 := if full then s1.discardRecord 0 else s1
  let r1 := { r with flags := { r.flags with overwrote := !doomed.isEmpty || full } }
  { s2 with records := s2.records ++ [r1] }

/-! ### Running totals -/

/-- A furnace's totals with a closed period added (R137). -/
def FurnaceTotals.add (t : FurnaceTotals) (p : FurnacePart) : FurnaceTotals :=
  let u := p.unallotted.getD 0
  { net := satAdd cap48 t.net p.net
    unallotted := satAdd cap48 t.unallotted u
    credit := satAdd cap48 t.credit p.credit
    estimated := satAdd cap48 t.estimated p.estimated
    charge := satAdd cap48 t.charge p.charge
    cullet := satAdd cap48 t.cullet p.cullet
    pulled := satAdd cap48 t.pulled p.pulled
    closes := bump t.closes
    sat := t.sat || satOver cap48 t.net p.net || satOver cap48 t.unallotted u || satOver cap48 t.credit p.credit ||
      satOver cap48 t.estimated p.estimated || satOver cap48 t.charge p.charge || satOver cap48 t.cullet p.cullet ||
      satOver cap48 t.pulled p.pulled }

/-- A line's totals with a closed period added (R137). -/
def LineTotals.add (t : LineTotals) (e : LineEntry) : LineTotals :=
  { net := satAdd cap48 t.net e.net
    share := satAdd cap48 t.share e.share
    total := satAdd cap48 t.total e.total
    pulled := satAdd cap48 t.pulled e.pulled
    formed := satAdd cap48 t.formed e.formed
    diverted := satAdd cap48 t.diverted e.diverted
    rejected := satAdd cap48 t.rejected e.rejected
    packed := satAdd cap48 t.packed e.packed
    cuts := satAdd cap48 t.cuts e.cuts
    closes := bump t.closes
    sat := t.sat || satOver cap48 t.net e.net || satOver cap48 t.share e.share || satOver cap48 t.total e.total ||
      satOver cap48 t.pulled e.pulled || satOver cap48 t.formed e.formed || satOver cap48 t.diverted e.diverted ||
      satOver cap48 t.rejected e.rejected || satOver cap48 t.packed e.packed || satOver cap48 t.cuts e.cuts }

/-- The closed period added to the totals of the furnace and of each line of the record (R123 step 3). -/
def State.addTotals (s : State) (r : GroupRecord) : State :=
  { s with
    furnaceTotals := vset s.furnaceTotals r.group ((vget s.furnaceTotals r.group).add r.furnace)
    lineTotals := r.lines.foldl (fun v e => vset v e.line ((vget v e.line).add e)) s.lineTotals }

/-! ### The completion event -/

/-- RATO raised with the accounts out of band, where there are any (R121, R123 step 4). -/
def State.raiseRato (s : State) (furnace : Option (Fin 4)) (lines : List (Fin 8)) : State :=
  if furnace.isSome ∨ lines ≠ [] then
    { s with attention := { s.attention.setPending .rato true with
        ratoFurnaces := match furnace with
          | some f => vset s.attention.ratoFurnaces f true
          | none => s.attention.ratoFurnaces
        ratoLines := lines.foldl (fun v l => vset v l true) s.attention.ratoLines } }
  else s

/-- PCLS raised with the group (R123 step 5). -/
def State.raisePcls (s : State) (g : Fin 4) : State :=
  { s with attention := { s.attention.setPending .pcls true with pcls := vset s.attention.pcls g true } }

/-- The reads that the close computation makes of the closing set (R144; log 17). -/
def ClosingSet.items (c : ClosingSet) (g : Fin 4) : List Item :=
  Item.closing (.furnace g) :: c.lines.map fun x => Item.closing (.line x.line)

/-- The close of a group worked and delivered (R123 steps 1 to 7), from its closing set as read. -/
def State.deliver (s : State) (g : Fin 4) (c : ClosingSet) : State :=
  let r := c.record g
  let s1 := (((s.appendRecord r).addTotals r).raiseRato (if c.furnaceOut then some g else none) c.linesOut).raisePcls g
  s1.setGroup g { s1.group g with closing := none }

/-- The completion event of a close (R123, R124). Where a deferred swap follows in the same event, its stream and
configuration reads come before the reads of the closing set (R144). -/
def State.complete (s : State) (g : Fin 4) : State :=
  match (s.group g).closing with
  | none => s
  | some c0 =>
    let again := (s.group g).deferred
    let s1 := if again then s.touchAll (s.loadedItems ++ s.configItems g) else s
    let s2 := s1.touchAll (c0.items g)
    match (s2.group g).closing with
    | none => s2
    | some c =>
      let s3 := s2.deliver g c
      if again then (s3.setGroup g { s3.group g with deferred := false }).swap g .deferred else s3

/-- The latest completion of the close in flight is due (R110). -/
def State.completionDue (s : State) (g : Fin 4) : Bool :=
  match (s.group g).closing with
  | none => false
  | some c => decide (c.stop.elapsed + Config.closeMs ≤ s.now)

/-! ### Layouts (R191, R192) -/

def RatioItem.bytes (r : RatioItem) : List Byte :=
  be 1 (maskNat [r.value.isNone, r.lowMass, r.sat, r.rejOverForm]) ++
    match r.value with
    | none => []
    | some v => be 4 v

/-- The kinds list: one item for each nonzero accumulator, in kind order (R129). -/
def Energy.kindsList (e : Energy) : List Byte :=
  listBytes (fun k : Kind => be 1 k.code ++ be 6 (e.get k)) (Kind.all.filter fun k => decide (e.get k ≠ 0))

/-- A held-stream set as a list of stream numbers, ascending (R129). -/
def heldBytes (h : HeldSet) : List Byte :=
  listBytes (fun k : Fin 48 => be 1 k.val) ((List.finRange 48).filter (vget h))

def RecordFlags.bytes (f : RecordFlags) : List Byte :=
  be 1 (maskNat [f.timeAdjusted, f.overwrote, f.sat, f.negnet, f.suspect, f.halted])

/-- A correction, present when not zero (R129, R130). -/
def correctionBytes (c : Int) : List Byte := if c = 0 then [] else beInt 6 c

/-- A record's piece count (R128). -/
def GroupRecord.pieces (r : GroupRecord) : Nat := 1 + r.lines.length

/-- What a refused or taken take names a record by (R135, R192). -/
def GroupRecord.identity (r : GroupRecord) : List Byte := be 1 r.group.val ++ be 4 r.period ++ be 1 r.pieces

/-- Piece 0 after its prefix (R192). -/
def GroupRecord.headBytes (r : GroupRecord) : List Byte :=
  be 4 r.start.sec ++ be 2 r.start.ms ++ be 4 r.stop.sec ++ be 2 r.stop.ms ++
    be 1 (maskNat [r.start.timeSet, r.stop.timeSet]) ++ be 6 r.duration ++ be 1 r.cause.code ++ r.flags.bytes ++
    listBytes (fun e : LineEntry => be 1 e.line.val) r.lines ++
    be 1 (maskNat [decide (r.furnace.correction ≠ 0), r.furnace.unallotted.isSome, r.furnace.perMille.isSome]) ++
    r.furnace.energy.kindsList ++ be 6 r.furnace.credit ++ be 6 r.furnace.estimated ++
    correctionBytes r.furnace.correction ++ be 6 r.furnace.net ++ be 6 r.furnace.charge ++ be 6 r.furnace.cullet ++
    be 6 r.furnace.pulled ++ (r.furnace.unallotted.elim [] (be 6)) ++ (r.furnace.perMille.elim [] (be 2)) ++
    be 4 r.furnace.reversals ++ be 4 r.furnace.lastReversal ++ r.furnace.melt.bytes ++ heldBytes r.furnace.held ++
    r.ratio.bytes

/-- The minimum and maximum cut interval where present (R130). -/
def intervalBytes : Option (Nat × Nat) → List Byte
  | none => []
  | some (lo, hi) => be 2 lo ++ be 2 hi

/-- A line piece after its prefix (R192). -/
def LineEntry.bytes (e : LineEntry) : List Byte :=
  be 1 e.line.val ++ be 1 (maskNat [decide (e.correction ≠ 0), e.cutIntervals.isSome]) ++ e.energy.kindsList ++
    be 6 e.credit ++ be 6 e.estimated ++ correctionBytes e.correction ++ be 6 e.net ++ be 6 e.share ++ be 6 e.total ++
    be 4 e.cuts ++ be 4 e.divertedCuts ++ be 6 e.pulled ++ be 6 e.diverted ++ be 6 e.formed ++ be 6 e.rejected ++
    be 6 e.packed ++ be 4 e.rejectWare ++ be 4 e.runningSeconds ++ be 4 e.stoppedSeconds ++ be 4 e.jobChanges ++
    be 4 e.weightHolds ++ intervalBytes e.cutIntervals ++ e.pull.bytes ++ e.pack.bytes ++ heldBytes e.held

/-- Piece `p` of a record with its prefix, for `p` below the piece count (R192). -/
def GroupRecord.piece (r : GroupRecord) (p : Nat) : List Byte :=
  r.identity ++ be 1 p ++
    match p with
    | 0 => r.headBytes
    | i + 1 => (r.lines[i]?).elim [] LineEntry.bytes

/-! ### take and look -/

/-- The oldest record read through the check unit (R134, R150). -/
def State.readOldest (s : State) : State := s.touch (.queue 0)

/-- look look at record (R134). -/
def takeLook (args : List Byte) (s : State) : Reply × State :=
  match fields [1] args with
  | some [p] =>
    if 8 < p then refuse .badarg s
    else
      match s.records with
      | [] => refuse .empty s
      | r :: _ =>
        if r.pieces ≤ p then refuse .badarg s
        else
          let s1 := s.readOldest
          answer ((s1.records.head?).elim [] fun x => x.piece p) s1
  | _ => refuse .badarg s

/-- take take record (R135). -/
def takeTake (args : List Byte) (s : State) : Reply × State :=
  match fields [1, 1, 4] args with
  | some [p, g, n] =>
    if 8 < p ∨ 3 < g then refuse .badarg s
    else
      match s.records with
      | [] => refuse .empty s
      | r :: _ =>
        if r.group.val ≠ g ∨ r.period ≠ n then ({ status := .state, results := r.identity }, s)
        else if r.pieces ≤ p then refuse .badarg s
        else
          let s1 := s.readOldest
          let last := decide (p + 1 = r.pieces)
          answer (flagByte last ++ (s1.records.head?).elim [] fun x => x.piece p)
            (if last then s1.removeRecord 0 else s1)
  | _ => refuse .badarg s

/-! ### rdtt -/

def FurnaceTotals.bytes (t : FurnaceTotals) : List Byte :=
  be 6 t.net ++ be 6 t.unallotted ++ be 6 t.credit ++ be 6 t.estimated ++ be 6 t.charge ++ be 6 t.cullet ++
    be 6 t.pulled ++ be 4 t.closes ++ flagByte t.sat

def LineTotals.bytes (t : LineTotals) : List Byte :=
  be 6 t.net ++ be 6 t.share ++ be 6 t.total ++ be 6 t.pulled ++ be 6 t.formed ++ be 6 t.diverted ++
    be 6 t.rejected ++ be 6 t.packed ++ be 6 t.cuts ++ be 4 t.closes ++ flagByte t.sat

/-- rdtt read totals (R139). -/
def takeRdtt (args : List Byte) (s : State) : Reply × State :=
  match fields [1] args with
  | some [a] =>
    match account? a with
    | some (.furnace f) => answer (vget s.furnaceTotals f).bytes s
    | some (.line l) => answer (vget s.lineTotals l).bytes s
    | none => refuse .badarg s
  | _ => refuse .badarg s

/-! ### The snapshot buffer -/

/-- A snapshot's piece count. -/
def Snapshot.pieces (x : Snapshot) : Nat := 1 + x.lines.length

/-- A stamp as plant seconds, milliseconds, time-set flag and elapsed base (R193). -/
def Stamp.bytes (t : Stamp) : List Byte := be 4 t.sec ++ be 2 t.ms ++ flagByte t.timeSet ++ be 6 t.elapsed

/-- The live sets that snap reads (R141, R144). -/
def State.liveItems (s : State) (g : Fin 4) : List Item :=
  Item.live (.furnace g) :: (s.linesOf g).map fun l => Item.live (.line l)

/-- The snapshot of a group from the present live sets and input state (R141, R142). -/
def State.snapshotOf (s : State) (g : Fin 4) : Snapshot :=
  { group := g
    period := (s.group g).period
    closing := s.isClosing g
    time := s.stamp
    furnace := s.fLive g
    lines := (s.linesOf g).map fun l =>
      { line := l
        live := s.lLive l
        running := (s.lineInput l).running
        lastInterval := (s.lineInput l).lastInterval
        cutBounces := (s.lineInput l).cutBounces
        rejectBounces := (s.lineInput l).rejectBounces
        job := s.job l } }

/-- snap snapshot group (R141, R193). -/
def takeSnap (args : List Byte) (s : State) : Reply × State :=
  match fields [1] args with
  | some [g] =>
    match fin? 4 g with
    | some g =>
      if (s.furnaceCfg g).defined then
        let s1 := s.touchAll (s.liveItems g)
        let x := s1.snapshotOf g
        answer (be 1 g.val ++ be 4 x.period ++ flagByte x.closing ++ x.time.bytes ++ be 1 x.pieces)
          { s1 with snapshot := some x }
      else refuse .badarg s
    | none => refuse .badarg s
  | _ => refuse .badarg s

def Energy.bytes (e : Energy) : List Byte := be 6 e.gas ++ be 6 e.oil ++ be 6 e.elec ++ be 6 e.oxy ++ be 6 e.aux
def LiveFlags.bytes (f : LiveFlags) : List Byte := be 1 (maskNat [f.sat, f.suspect, f.timeAdjusted])
def Mass.bytes (m : Mass) : List Byte := be 6 m.grams ++ be 1 m.tenths

/-- Snapshot piece 0 after its prefix (R193). -/
def FurnaceLive.bytes (x : FurnaceLive) : List Byte :=
  x.base.energy.bytes ++ be 6 x.base.credit ++ be 6 x.base.estimated ++ beInt 6 x.base.correction ++ be 6 x.charge ++
    be 6 x.cullet ++ be 4 x.reversals ++ be 4 x.lastReversal ++ heldBytes x.base.held ++ x.base.start.bytes ++
    x.base.flags.bytes

/-- A snapshot line piece after its prefix (R193). -/
def SnapLine.bytes (y : SnapLine) : List Byte :=
  let x := y.live
  be 1 y.line.val ++ be 1 (maskNat [x.cutIntervals.isSome, y.lastInterval.isSome]) ++ x.base.energy.bytes ++
    be 6 x.base.credit ++ be 6 x.base.estimated ++ beInt 6 x.base.correction ++ be 4 x.cuts ++ be 4 x.divertedCuts ++
    x.formed.bytes ++ x.diverted.bytes ++ x.rejected.bytes ++ be 4 x.rejectWare ++ be 4 x.runningSeconds ++
    be 4 x.stoppedSeconds ++ be 4 x.jobChanges ++ be 4 x.weightHolds ++ intervalBytes x.cutIntervals ++
    heldBytes x.base.held ++ x.base.start.bytes ++ x.base.flags.bytes ++ flagByte y.running ++
    (y.lastInterval.elim [] (be 2)) ++ be 4 y.cutBounces ++ be 4 y.rejectBounces ++ be 1 y.job.gobs ++
    be 2 y.job.weight

/-- Piece `p` of a snapshot with its prefix (R193). -/
def Snapshot.piece (x : Snapshot) (p : Nat) : List Byte :=
  be 1 x.group.val ++ be 4 x.period ++ be 1 x.pieces ++ be 1 p ++ x.time.bytes ++
    match p with
    | 0 => x.furnace.bytes
    | i + 1 => (x.lines[i]?).elim [] SnapLine.bytes

/-- rdsn read snapshot (R143). -/
def takeRdsn (args : List Byte) (s : State) : Reply × State :=
  match fields [1] args with
  | some [p] =>
    if 8 < p then refuse .badarg s
    else
      match s.snapshot with
      | none => refuse .state s
      | some x => if x.pieces ≤ p then refuse .badarg s else answer (x.piece p) s
  | _ => refuse .badarg s

end Sys2Proof.Machine
end

