-- ==== Sys2Proof/Machine/Accounts.lean ====
section
/-! DEFINITION. The account store and the run states (01): ldfn, rdfn, ldln, rdln, jobl, runa, hlta, clra, isol and the
accounting clear. -/

namespace Sys2Proof.Machine

/-- A stream not in OFF has the account as its target (R2, R5). -/
def State.targeted (s : State) (a : Account) : Bool :=
  (List.finRange 48).any fun k =>
    match s.stream k with
    | some st => decide (st.entry.target = a ∧ st.live.state ≠ .off)
    | none => false

/-! ### Furnaces -/

/-- The furnace configuration that the fields of an ldfn spell, where each lies in its encoding and range (R2, R171,
R191). -/
def furnaceOf (state mode markSource length offset blanking lowMass lo hi : Nat) : Option FurnaceConfig :=
  match bool? state, closeMode? mode with
  | some d, some m =>
    if markSource ≤ 254 ∧ 1 ≤ length ∧ length ≤ 1440 ∧ offset ≤ 1439 ∧ blanking ≤ 120 ∧ lowMass ≤ cap32 ∧ hi ≤ cap32 ∧
        lo ≤ hi then
      some { defined := d, mode := m, markSource := markSource, length := length, offset := offset
             blanking := blanking, lowMass := lowMass, bandLow := lo, bandHigh := hi }
    else none
  | _, _ => none

/-- What the load of a furnace's state field does to the blocks (R3, R76, R90). `was` is the state before. -/
def State.furnaceState (s : State) (f : Fin 4) (was is : Bool) : State :=
  if !was && is then
    let s1 := ((s.setFLive f { base := { start := if s.closes then s.stamp else {} } }).setGroup f
      { s.group f with closing := none, deferred := false }).rewritten (.live (.furnace f))
    if s.run = .pass then s1 else s1.startFurnace f
  else if was && !is then
    (((s.setFLive f {}).setGroup f { s.group f with deferred := false }).setFurnaceInput f
      { s.furnaceInput f with rev := none, blankingEnd := none }).rewritten (.live (.furnace f))
  else s

/-- A taken ldfn (R2, R3, R98). -/
def State.loadFurnace (s : State) (f : Fin 4) (c : FurnaceConfig) : State :=
  ((((s.setFurnaceCfg f c).rewritten (.config (.furnace f))).furnaceState f (s.furnaceCfg f).defined
    c.defined)).computeBoundary f

/-- The state conditions that refuse an ldfn (R2). -/
def State.furnaceHeld (s : State) (f : Fin 4) (c : FurnaceConfig) : Bool :=
  (s.furnaceCfg f).defined && !c.defined &&
    (!(s.linesOf f).isEmpty || s.targeted (.furnace f) || s.isClosing f)

/-- ldfn load furnace (R2). Its state check reads the configuration it loads (R144, R154). -/
def takeLdfn (args : List Byte) (s : State) : Reply × State :=
  match fields [1, 1, 1, 1, 2, 2, 1, 4, 4, 4] args with
  | some [f, state, mode, markSource, length, offset, blanking, lowMass, lo, hi] =>
    match fin? 4 f, furnaceOf state mode markSource length offset blanking lowMass lo hi with
    | some f, some c =>
      let s1 := s.touch (.config (.furnace f))
      if s1.furnaceHeld f c then refuse .state s1 else answer [] (s1.loadFurnace f c)
    | _, _ => refuse .badarg s
  | _ => refuse .badarg s

def FurnaceConfig.bytes (c : FurnaceConfig) : List Byte :=
  flagByte c.defined ++ be 1 c.mode.code ++ be 1 c.markSource ++ be 2 c.length ++ be 2 c.offset ++ be 1 c.blanking ++
    be 4 c.lowMass ++ be 4 c.bandLow ++ be 4 c.bandHigh

/-- rdfn read furnace (R4). -/
def takeRdfn (args : List Byte) (s : State) : Reply × State :=
  match fields [1] args with
  | some [f] =>
    match fin? 4 f with
    | some f =>
      let s1 := s.touch (.config (.furnace f))
      answer ((s1.furnaceCfg f).bytes ++ listBytes (fun l : Fin 8 => be 1 l.val) (s1.linesOf f) ++
        flagByte (s1.isClosing f) ++ flagByte (s1.group f).deferred ++ be 4 (s1.group f).period) s1
    | none => refuse .badarg s
  | _ => refuse .badarg s

/-! ### Lines -/

/-- The furnace field of ldln: 0 to 3, or FFh for UNUSED (R191). -/
def furnaceField (x : Nat) : Option (Option (Fin 4)) := if x = 255 then some none else (fin? 4 x).map some

/-- The line configuration that the fields of an ldln spell, where each lies in its encoding and range (R5). -/
def lineOf (furnace spacing timeout alert gobLow gobHigh lowMass lo hi : Nat) : Option LineConfig :=
  match furnaceField furnace, bool? alert with
  | some f, some a =>
    if 10 ≤ spacing ∧ spacing ≤ 1000 ∧ 1 ≤ timeout ∧ timeout ≤ 600 ∧ 1 ≤ gobLow ∧ gobHigh ≤ 65535 ∧ gobLow ≤ gobHigh ∧
        lowMass ≤ cap32 ∧ hi ≤ cap32 ∧ lo ≤ hi then
      some { furnace := f, spacing := spacing, timeout := timeout, stopAlert := a, gobLow := gobLow, gobHigh := gobHigh
             lowMass := lowMass, bandLow := lo, bandHigh := hi }
    else none
  | _, _ => none

/-- The furnace field names an UNUSED furnace (R5). -/
def State.namesUnused (s : State) (c : LineConfig) : Bool :=
  match c.furnace with
  | some f => !(s.furnaceCfg f).defined
  | none => false

/-- The state conditions that refuse an ldln (R5). -/
def State.lineHeld (s : State) (l : Fin 8) (c : LineConfig) : Bool :=
  (decide (c.furnace ≠ (s.lineCfg l).furnace) && decide (s.run ≠ .idle)) ||
    (c.furnace.isNone && s.targeted (.line l))

/-- What a load of a line does to its inputs (R6, R76, R85): tracking starts or stops with the assignment; a new stop
timeout recomputes a running timer. -/
def State.lineInputsAfter (s : State) (l : Fin 8) (was c : LineConfig) : State :=
  if was.furnace.isNone ∧ c.furnace.isSome then s.startLine l
  else if was.furnace.isSome ∧ c.furnace.isNone then s.stopLine l
  else if was.timeout ≠ c.timeout then s.retime l
  else s

/-- A taken ldln (R5, R6). -/
def State.loadLine (s : State) (l : Fin 8) (c : LineConfig) : State :=
  ((s.setLineCfg l c).rewritten (.config (.line l))).lineInputsAfter l (s.lineCfg l) c

/-- ldln load line (R5). Its state check reads the configuration it loads (R144, R154). DEDUCED: whether the furnace it
names is DEFINED is asked of the groups, without a read of that furnace's configuration (R148; log 36). -/
def takeLdln (args : List Byte) (s : State) : Reply × State :=
  match fields [1, 1, 2, 2, 1, 2, 2, 4, 4, 4] args with
  | some [l, furnace, spacing, timeout, alert, gobLow, gobHigh, lowMass, lo, hi] =>
    match fin? 8 l, lineOf furnace spacing timeout alert gobLow gobHigh lowMass lo hi with
    | some l, some c =>
      if s.namesUnused c then refuse .badarg s
      else
        let s1 := s.touch (.config (.line l))
        if s1.lineHeld l c then refuse .state s1 else answer [] (s1.loadLine l c)
    | _, _ => refuse .badarg s
  | _ => refuse .badarg s

/-- The furnace field of a line in an answer (R191). -/
def furnaceByte : Option (Fin 4) → List Byte
  | none => [255#8]
  | some f => be 1 f.val

def LineConfig.bytes (c : LineConfig) : List Byte :=
  furnaceByte c.furnace ++ be 2 c.spacing ++ be 2 c.timeout ++ flagByte c.stopAlert ++ be 2 c.gobLow ++
    be 2 c.gobHigh ++ be 4 c.lowMass ++ be 4 c.bandLow ++ be 4 c.bandHigh

/-- rdln read line (R7). -/
def takeRdln (args : List Byte) (s : State) : Reply × State :=
  match fields [1] args with
  | some [l] =>
    match fin? 8 l with
    | some l =>
      let s1 := s.touch (.config (.line l))
      answer ((s1.lineCfg l).bytes ++ be 1 (s1.job l).gobs ++ be 2 (s1.job l).weight ++
        flagByte (s1.lineInput l).running) s1
    | none => refuse .badarg s
  | _ => refuse .badarg s

/-- The job change counted in RUN (R8). -/
def State.countJob (s : State) (l : Fin 8) : State :=
  if s.run = .run then
    let s1 := s.touch (.live (.line l))
    s1.setLLive l { s1.lLive l with jobChanges := bump (s1.lLive l).jobChanges }
  else s

/-- jobl load job (R8). The test against the band reads the line's configuration (R144). DESIGN CHOICE: a jobl refused
for its gobs or weight range does not read it, as R8 gives its four checks no order (log 40). -/
def takeJobl (args : List Byte) (s : State) : Reply × State :=
  match fields [1, 1, 2] args with
  | some [l, gobs, weight] =>
    match fin? 8 l with
    | some l =>
      if 1 ≤ gobs ∧ gobs ≤ 4 ∧ 1 ≤ weight then
        let s1 := s.touch (.config (.line l))
        if weight < (s1.lineCfg l).gobLow ∨ (s1.lineCfg l).gobHigh < weight then refuse .badarg s1
        else if !s1.assigned l then refuse .state s1
        else answer [] ((s1.setJob l { gobs := gobs, weight := weight }).countJob l)
      else refuse .badarg s
    | none => refuse .badarg s
  | _ => refuse .badarg s

/-! ### Run states -/

/-- A furnace is DEFINED (R15). -/
def State.anyDefined (s : State) : Bool := (List.finRange 4).any fun f => (s.furnaceCfg f).defined

/-- The held-stream set with another's numbers added (R45). -/
def HeldSet.join (h k : HeldSet) : HeldSet := vgen fun i => vget h i || vget k i

/-- The live sets at a runa (R15, R45): the held streams added, and from IDLE the start time written. The writes are
made without a read (log 32). -/
def LiveBase.entered (b : LiveBase) (held : HeldSet) (start : Option Stamp) : LiveBase :=
  { b with held := HeldSet.join b.held held, start := start.getD b.start }

/-- RUN entered (R15): the held-stream scan reads every loaded entry (R144). -/
def State.enterRun (s : State) : State :=
  let s1 := s.touchAll s.loadedItems
  let start := if s1.run = .idle then some s1.stamp else none
  { s1 with
    run := .run
    furnaceLive := vgen fun f =>
      if (s1.furnaceCfg f).defined then
        { s1.fLive f with base := (s1.fLive f).base.entered (s1.silentFor (.furnace f)) start }
      else s1.fLive f
    lineLive := vgen fun l =>
      if s1.assigned l then { s1.lLive l with base := (s1.lLive l).base.entered (s1.silentFor (.line l)) start }
      else s1.lLive l
    latent := s1.latent.filter fun p =>
      match p.1 with
      | .live a => !s1.accountInUse a
      | _ => true }

/-- runa run accounting (R15). -/
def takeRuna (args : List Byte) (s : State) : Reply × State :=
  match fields [] args with
  | some [] =>
    match s.run with
    | .pass => refuse .state s
    | .run => answer [] s
    | _ => if s.anyDefined then answer [] s.enterRun else refuse .state s
  | _ => refuse .badarg s

/-- hlta halt accounting (R16). -/
def takeHlta (args : List Byte) (s : State) : Reply × State :=
  match fields [] args with
  | some [] => if s.run = .run then answer [] { s with run := .halt } else refuse .state s
  | _ => refuse .badarg s

/-- The item is written by the accounting clear, or its record leaves with the queue (R18, R154). -/
def State.clearWrites (s : State) : Item → Bool
  | .stream k =>
    match s.stream k with
    | some st => decide (st.live.state ≠ .off)
    | none => false
  | .config _ => false
  | _ => true

/-- An injection on a queued record (R18, R154). -/
def Injection.onQueue (j : Injection) : Bool :=
  match j.item with
  | .queue _ => true
  | _ => false

/-- The accounting clear (R18), which leaves the part in run state `r`; tracking restarts where that is IDLE. -/
def State.clearAccounting (s : State) (r : RunState) : State :=
  State.startTracking
    { s.clearInputs with
      run := r
      furnaceLive := Vector.replicate 4 {}
      lineLive := Vector.replicate 8 {}
      groups := Vector.replicate 4 {}
      streams := s.streams.map fun x => x.map Stream.cleared
      heard := []
      records := []
      lost := 0
      furnaceTotals := Vector.replicate 4 {}
      lineTotals := Vector.replicate 8 {}
      snapshot := none
      attention := s.attention.cleared
      check := { s.check with armed := s.check.armed.filter fun j => !j.onQueue }
      latent := s.latent.filter fun p => !s.clearWrites p.1 }

/-- clra clear accounting (R17). -/
def takeClra (args : List Byte) (s : State) : Reply × State :=
  match fields [] args with
  | some [] =>
    match s.run with
    | .run => refuse .state s
    | .pass => answer [] (s.clearAccounting .pass)
    | _ => answer [] (s.clearAccounting .idle)
  | _ => refuse .badarg s

/-- isol isolate (R19). -/
def takeIsol (args : List Byte) (s : State) : Reply × State :=
  match fields [1] args with
  | some [on] =>
    match bool? on with
    | some true => answer [] (s.clearAccounting .pass)
    | some false =>
      if s.run = .pass then answer [] (State.startTracking { s with run := .idle }) else answer [] s
    | none => refuse .badarg s
  | _ => refuse .badarg s

end Sys2Proof.Machine
end

