-- ==== Sys2Proof/Machine/Ports.lean ====
section
/-! DEFINITION. The link ports (09): bringing a link up and losing it, storing and forwarding frames, transmit
arbitration, and the commands lkcf and lkst. -/

namespace Sys2Proof.Machine

/-! ### Bringing a link up (R156 to R158) -/

/-- The entry to UP at a rate (R157). -/
def Port.enterUp (p : Port) (r : Rate) : Port :=
  { p with link := .up, rate := some r, rateFault := false, line := .idle r }

/-- The judgement of an offer burst in OFFER (R157): B before A among the common rates; none common is a rate fault. A
burst that names no rate is no signal of R157 (log 30). -/
def Port.judgeBurst (p : Port) (rates : RateSet) : Port :=
  if p.accepted.b && rates.b then p.enterUp .b
  else if p.accepted.a && rates.a then p.enterUp .a
  else if rates.a || rates.b then { p with rateFault := true }
  else p

/-- A port in DOWN at the first valid signal (R156): OFFER, the rate fault clear, and the signal judged where it is a
burst; an idle is judged by IDLE_DETECTION once held (R157). -/
def Port.firstSignal (p : Port) (x : LinkSignal) : Port :=
  match p.link with
  | .down =>
    let q := { p with link := .offer, rateFault := false }
    match x with
    | .burst rates => q.judgeBurst rates
    | .idle _ => q
  | _ => p

/-- An offer burst received in OFFER (R157). -/
def Port.burstReceived (p : Port) (rates : RateSet) : Port :=
  match p.link with
  | .offer => p.judgeBurst rates
  | _ => p

/-- Idle detected in OFFER (R157). -/
def Port.idleDetected (p : Port) (x : IdleSeen) : Port :=
  match p.link with
  | .offer =>
    match x with
    | .held r => if p.accepted.has r then p.enterUp r else { p with rateFault := true }
    | .both => { p with rateFault := true }
  | _ => p

/-- An offer burst sent by a port in DOWN or OFFER, every 1 ms (R156). -/
def Port.sendBurst (p : Port) (now : Nat) : Port :=
  if p.link ≠ .up ∧ p.burstAt ≤ now then { p with line := .burst p.accepted, burstAt := now + 1 } else p

/-- What port P loses when it leaves OFFER or UP (R158 steps 1, 2, 3 and 5); `cut` says that the other port was
transmitting from P's buffer, so that frame is counted aborted. -/
def Port.dropped (p : Port) (cut : Bool) : Port :=
  { p with
    tx := none
    rx := none
    localQueue := []
    reserved := 0
    buffer := []
    aborted := if cut then bump p.aborted else p.aborted
    rate := none
    line := .silent }

/-- What the other port loses then (R158 steps 3 and 4): its own buffer, the storing of a frame in reception (R161),
and the frame it was transmitting from P's buffer, which ends with an abort mark. -/
def Port.partnerDropped (q : Port) (cut : Bool) : Port :=
  { q with
    buffer := []
    rx := q.rx.map fun _ => false
    tx := if cut then none else q.tx
    line := if cut then .abort else q.line }

/-- A port leaves OFFER or UP for link state `l` (R158 steps 1 to 5). -/
def State.dropLink (s : State) (p : Side) (l : LinkState) : State :=
  let cut := decide ((s.port p.other).tx = some .forwarded)
  (s.setPort p.other ((s.port p.other).partnerDropped cut)).setPort p { (s.port p).dropped cut with link := l }

/-- The loss of signal for 40 ms (R158). -/
def State.signalLoss (s : State) (p : Side) : State :=
  match (s.port p).link with
  | .down => s
  | _ => s.dropLink p .down

/-- An offer burst received in UP (R158). -/
def State.partnerRestarts (s : State) (p : Side) (rates : RateSet) : State :=
  match (s.port p).link with
  | .up =>
    let s1 := s.dropLink p .offer
    s1.setPort p ((s1.port p).judgeBurst rates)
  | _ => s

/-! ### The forwarding buffers (R161, R162) -/

/-- The bytes of the frames that a buffer lists, those already sent of a head in transmission among them. -/
def Port.listed (p : Port) : Nat := (p.buffer.map fun e => e.bytes.length).sum

/-- The other port is transmitting the head of this port's buffer. -/
def State.sending (s : State) (p : Side) : Bool := decide ((s.port p.other).tx = some .forwarded)

/-- How many bytes of the head in transmission have left the buffer: a free value, no more than the head holds
(log 8). -/
def State.sentBytes (s : State) (p : Side) : Nat :=
  match (s.port p).buffer with
  | [] => 0
  | e :: _ => if s.sending p then Config.freeNat s.fresh % (e.bytes.length + 1) else 0

/-- Bytes now in a port's forwarding buffer (R155, R161). -/
def State.bytesHeld (s : State) (p : Side) : Nat := min Config.bufferBytes ((s.port p).listed - s.sentBytes p)

/-- A fresh free value for the next draw. -/
def State.drawn (s : State) : State := { s with fresh := s.fresh + 1 }

/-- Whether the tap consumes a frame, by its first and third byte (R160, R161): a cmnd to the part's address, which it
stores nothing of. -/
def State.consumes (s : State) (dest kind : Byte) : Bool := decide (kind = kindCmnd ∧ dest = s.address)

/-- The frame in reception on a port ends in its buffer by an overrun (R162): the stored part leaves the buffer, the
abort mark is sent where its transmission has begun, it is counted aborted, and the rest is not stored. -/
def State.overrun (s : State) (p : Side) : State :=
  let q := s.port p
  let stored := decide (q.rx = some true)
  let kept := if stored then q.buffer.dropLast else q.buffer
  let cut := s.sending p && stored && kept.isEmpty
  let s1 := if cut then s.setPort p.other { s.port p.other with tx := none, line := .abort } else s
  s1.setPort p { q with buffer := kept, rx := some false, aborted := bump q.aborted }

/-- The storing of a frame is judged at the start of its reception (R161): the other port was UP then, and has not left
UP since, where it is UP and entered UP before. -/
def State.linkedSince (s : State) (p : Side) (begun : Begun) : Bool :=
  decide ((s.port p.other).link = .up) && begun.linked

/-- The start threshold that a frame began with (R166): the present one where no lkcf of the port has been taken since,
else the one that the first of them replaced. -/
def Port.thresholdAt (p : Port) (begun : Begun) : Threshold :=
  ((p.threshold :: p.past)[begun.reloads]?).getD p.threshold

/-- A frame whose reception on a port is noticed with these bytes arrived, from its third byte (R161; log 9): it is
stored where the other port was UP at its start and the tap will not consume it, with the threshold it began with. A
frame already noticed takes the bytes. -/
def State.noteReception (s : State) (p : Side) (arrived : Arrival) : State :=
  let q := s.port p
  if q.link ≠ .up then s
  else
    match q.rx, arrived.bytes with
    | none, dest :: _ :: kind :: _ =>
      if s.linkedSince p arrived.begun ∧ !s.consumes dest kind then
        s.setPort p { q with
          rx := some true
          buffer := q.buffer ++
            [{ bytes := arrived.bytes, whole := false, good := false, threshold := q.thresholdAt arrived.begun }] }
      else s.setPort p { q with rx := some false }
    | some true, _ :: _ =>
      s.setPort p { q with buffer := q.buffer.modify (q.buffer.length - 1) fun e => { e with bytes := arrived.bytes } }
    | _, _ => s

/-- The room test after bytes have entered a port's buffer (R162): more than 2048 bytes held is an overrun of the frame
in reception. Where the head is in transmission the bytes held are a free value's (log 8). -/
def State.testRoom (s : State) (p : Side) : State :=
  if (s.port p).rx ≠ some true ∨ (s.port p).listed ≤ Config.bufferBytes then s
  else if s.sending p then
    if (s.port p).listed - s.sentBytes p ≤ Config.bufferBytes then s.drawn else (s.drawn).overrun p
  else s.overrun p

/-- The stored copy of a frame at its end-of-frame event (R161): complete if accepted; a bad frame stays only where its
transmission has begun, which it ends as received. DESIGN CHOICE: a frame that its sender ended with an abort mark is
sent on as its bytes with an ordinary end; the sender's mark is not repeated (log 42). -/
def State.endStored (s : State) (p : Side) (bytes : List Byte) (good : Bool) : State :=
  let q := s.port p
  if !good && !(s.sending p && decide (q.buffer.length = 1)) then
    s.setPort p { q with buffer := q.buffer.dropLast, rx := none }
  else
    let s1 := (s.setPort p { q with
      buffer := q.buffer.modify (q.buffer.length - 1) fun e =>
        { e with bytes := bytes, whole := true, good := good } }).testRoom p
    s1.setPort p { s1.port p with rx := none }

/-- A frame not noticed before its end-of-frame event (R161, R162): an accepted one that the tap does not consume is
stored whole where the other port was UP at its start and has stayed so; it overruns a buffer without room. -/
def State.storeWhole (s : State) (p : Side) (f : Frame) (begun : Begun) : State :=
  let q := s.port p
  if s.linkedSince p begun ∧ !s.consumes f.dest f.kind then
    let s1 := (s.setPort p { q with
      rx := some true
      buffer := q.buffer ++
        [{ bytes := f.bytes, whole := true, good := true, threshold := q.thresholdAt begun }] }).testRoom p
    s1.setPort p { s1.port p with rx := none }
  else s

/-- The forwarding of an accepted frame at its end-of-frame event (R161). -/
def State.forward (s : State) (p : Side) (f : Frame) (begun : Begun) : State :=
  match (s.port p).rx with
  | some true => s.endStored p f.bytes true
  | some false => s.setPort p { s.port p with rx := none }
  | none => s.storeWhole p f begun

/-- A bad frame (R159, R161): counted; what is stored of it is removed, or sent on where its transmission has begun.
DESIGN CHOICE: one first told of by its end is not tested for room, so over a full buffer it is counted aborted (R162)
only where FORWARD_OVERRUN has told of it before (log 9). -/
def State.badEnd (s : State) (p : Side) (bytes : List Byte) : State :=
  if (s.port p).link = .up then
    let s1 := s.setPort p { s.port p with badCheck := bump (s.port p).badCheck }
    match (s1.port p).rx with
    | some true => s1.endStored p bytes false
    | _ => s1.setPort p { s1.port p with rx := none }
  else s

/-! ### Transmission (R161 to R163) -/

/-- The bytes a start threshold asks for; none under WHOLE (R161). -/
def Threshold.bytes : Threshold → Option Nat
  | .b16 => some 16
  | .b64 => some 64
  | .b256 => some 256
  | .whole => none

/-- A frame at the head of a buffer is ready to leave (R161). -/
def Stored.ready (e : Stored) : Bool :=
  match e.threshold.bytes with
  | none => e.whole && e.good
  | some n => e.whole || decide (n ≤ e.bytes.length)

/-- The head of a buffer is ready to leave. -/
def Port.headReady (p : Port) : Bool :=
  match p.buffer with
  | [] => false
  | e :: _ => e.ready

/-- Forwarded frames go first: the feeding buffer holds a complete frame, or more than 1024 bytes (R163). -/
def Port.feedsFirst (p : Port) : Bool := (p.buffer.any fun e => e.whole) || decide (1024 < p.listed)

/-- What a transmitter chooses at a gap (R163). -/
inductive Choice where
  | forwarded
  | own
  | idle
  deriving DecidableEq, Repr

/-- The choice between the feeding buffer of port `q` and the local queue of port `p` (R163). -/
def arbitrate (p q : Port) : Choice :=
  if q.feedsFirst && q.headReady then .forwarded
  else if !p.localQueue.isEmpty then .own
  else if q.headReady then .forwarded
  else .idle

/-- The first bytes of the head of a buffer, as they go on the line. -/
def Port.headBytes (p : Port) : List Byte := (p.buffer.head?).elim [] Stored.bytes

/-- The transmitter of an UP port with nothing in transmission starts what it chooses (R163, R164). -/
def State.transmit (s : State) (p : Side) : State :=
  let q := s.port p
  if q.link = .up ∧ q.tx = none then
    match arbitrate q (s.port p.other) with
    | .forwarded => s.setPort p { q with tx := some .forwarded, line := .frame (s.port p.other).headBytes }
    | .own =>
      match q.localQueue with
      | [] => s
      | f :: rest => s.setPort p { q with localQueue := rest, tx := some (.own f.bytes), line := .frame f.bytes }
    | .idle => s.setPort p { q with line := (q.rate.map LineOut.idle).getD .silent }
  else s

/-- TRANSMIT_START (R163): the frame in reception on the other port is noticed as far as it has arrived, then the
transmitter chooses (log 9, 10). -/
def State.transmitStart (s : State) (p : Side) (arrived : Arrival) : State :=
  ((s.noteReception p.other arrived).testRoom p.other).transmit p

/-- The transmitter of a port sends idle: it is past its last gap, with neither source ready then (R163). -/
def Port.idles (p : Port) : Bool :=
  match p.line with
  | .idle _ => true
  | _ => false

/-- A transmitter that sends idle starts the first frame that has become ready in either source (R163). -/
def State.startIdle (s : State) (p : Side) : State :=
  if (s.port p).idles ∧ arbitrate (s.port p) (s.port p.other) ≠ .idle then s.transmit p else s

/-- What follows every event: the attention unit's work (R179 to R181), and then the start, at the event itself, of
frames that have become ready for a transmitter that sends idle (R163). Such a start from the plant port's local queue
frees a slot (R170), but lets no command be taken: the queue was empty while the transmitter was sending idle, so a
slot was free, and nothing waited for one. -/
def settle (s : State) : State := (s.attend.startIdle .field).startIdle .plant

/-- The last byte of the frame in transmission has been sent (R161): an own frame is done; a forwarded frame, once
whole, leaves the other port's buffer and is counted forwarded there if it was accepted. What ends on the line is a
frame, one that its sender aborted too (log 42). -/
def State.frameSent (s : State) (p : Side) : State :=
  let q := s.port p
  let o := s.port p.other
  match q.tx with
  | none => s
  | some (.own bytes) => s.setPort p { q with tx := none, line := .frame bytes }
  | some .forwarded =>
    match o.buffer with
    | [] => s
    | e :: rest =>
      if e.whole then
        (s.setPort p { q with tx := none, line := .frame e.bytes }).setPort p.other
          { o with buffer := rest, forwarded := if e.good then bump o.forwarded else o.forwarded }
      else s

/-- FORWARD_OVERRUN (R162): a further byte of the frame in reception on `p` finds the buffer full; `arrived` holds its
bytes with that one. It acts where what the buffer lists with those bytes passes 2048 bytes (log 9). -/
def State.forwardOverrun (s : State) (p : Side) (arrived : Arrival) : State :=
  let s1 := s.noteReception p arrived
  match (s1.port p).rx with
  | some true => if Config.bufferBytes < (s1.port p).listed then s1.overrun p else s1
  | _ => s1

/-- FORWARD_UNDERRUN (R162): the transmitter of the other port has sent all that port `p`'s buffer holds of the head,
whose end has not arrived. -/
def State.forwardUnderrun (s : State) (p : Side) : State :=
  let q := s.port p
  match q.buffer with
  | [] => s
  | e :: rest =>
    if s.sending p && !e.whole then
      (s.setPort p.other { s.port p.other with tx := none, line := .abort }).setPort p
        { q with buffer := rest, rx := q.rx.map fun _ => false, aborted := bump q.aborted }
    else s

/-! ### Commands -/

/-- What a taken lkcf does to the port (R166). -/
def State.configureLink (s : State) (p : Side) (rates : RateSet) (t : Threshold) : State :=
  let s1 := s.setPort p { s.port p with
    accepted := rates, threshold := t, past := (s.port p).threshold :: (s.port p).past }
  match (s1.port p).link, (s1.port p).rate with
  | .up, some r => if rates.has r then s1 else s1.dropLink p .offer
  | _, _ => s1

/-- lkcf configure link (R166). -/
def takeLkcf (args : List Byte) (s : State) : Reply × State :=
  match fields [1, 1, 1] args with
  | some [p, rates, t] =>
    match side? p, rateSet? rates, threshold? t with
    | some p, some rs, some t => if rs.a || rs.b then answer [] (s.configureLink p rs t) else refuse .badarg s
    | _, _, _ => refuse .badarg s
  | _ => refuse .badarg s

/-- The results of an lkst (R167). DESIGN CHOICE: the codes of link state and rate, and the widths that R191 does not
name (bytes held 2, local-queue frames 1, reserved slots 1), are those of log 12. -/
def State.linkBytes (s : State) (p : Side) : List Byte :=
  let q := s.port p
  be 1 q.link.code ++ optBytes (fun r : Rate => be 1 (Rate.code r)) q.rate ++ flagByte q.rateFault ++ be 1 (RateSet.mask q.accepted) ++
    be 1 q.threshold.code ++ be 2 (s.bytesHeld p) ++ be 1 q.localQueue.length ++
    (match p with
      | .field => []
      | .plant => be 1 q.reserved) ++
    be 4 q.forwarded ++ be 4 q.aborted ++ be 4 q.badCheck

/-- lkst link status (R167). -/
def takeLkst (args : List Byte) (s : State) : Reply × State :=
  match fields [1, 1] args with
  | some [p, clear] =>
    match side? p, bool? clear with
    | some p, some c =>
      let s1 := if s.sending p then s.drawn else s
      answer (s.linkBytes p)
        (if c then s1.setPort p { s.port p with forwarded := 0, aborted := 0, badCheck := 0 } else s1)
    | _, _ => refuse .badarg s
  | _ => refuse .badarg s

end Sys2Proof.Machine
end

