-- ==== Sys2Proof/Machine/CommandUnit.lean ====
section
/-! DEFINITION. The command unit (10): intake, the take event, the answer event, stat, and what frees a slot. -/

namespace Sys2Proof.Machine

/-! ### stat -/

/-- A group in a stat answer: close state, deferred flag, whether the furnace is DEFINED (R178). -/
def State.groupStat (s : State) (g : Fin 4) : List Byte :=
  flagByte (s.isClosing g) ++ flagByte (s.group g).deferred ++ flagByte (s.furnaceCfg g).defined

/-- The results of stat (R178). The counts of commands waiting and of records take 4 bytes each, as counts do in R191.
DESIGN CHOICE: the latched PTHRU level is coded 1 for high and 0 for low, where R191 names no code (log 12). -/
def State.statBytes (s : State) : List Byte :=
  be 1 s.run.code ++ flagByte s.pthru ++ [s.address] ++ flagByte s.clock.timeSet ++ be 4 s.commands.length ++
    be 4 s.records.length ++ be 2 s.lost ++ be 1 (maskNat s.attention.pending.toList) ++
    be 1 (maskNat s.attention.inService.toList) ++
    optBytes (fun x : Source => be 1 x.code.val) s.attention.highest ++ be 2 s.check.uncorrectable ++
    be 2 s.check.corrected ++ flagByte s.check.first.isSome ++ (List.finRange 4).flatMap s.groupStat

/-- stat status (R178). -/
def takeStat (args : List Byte) (s : State) : Reply × State :=
  match fields [] args with
  | some [] => answer s.statBytes s
  | _ => refuse .badarg s

/-! ### Execution -/

/-- A command's work in its owner's block: its argument bytes and the state at its take event, to the answer's status
and results and the state after it (R171 steps 2 to 4, R175). -/
abbrev Handler := List Byte → State → Reply × State

/-- The commands of the Command Index by code (R194). -/
def handlers : List (Nat × Handler) :=
  [(0x01, takeStat), (0x02, takeRuna), (0x03, takeHlta), (0x04, takeClra), (0x05, takeIsol),
   (0x10, takeLdfn), (0x11, takeRdfn), (0x12, takeLdln), (0x13, takeRdln), (0x14, takeJobl),
   (0x20, takeLdst), (0x21, takeRdst), (0x22, takeSten), (0x23, takeLstn),
   (0x30, takeClos), (0x31, takeSnap), (0x32, takeRdsn), (0x33, takeTake), (0x34, takeLook), (0x35, takeRdtt),
   (0x40, takeSett), (0x41, takeAdjt), (0x42, takeRdtm),
   (0x50, takeLdat), (0x51, takeAtds), (0x52, takePeek), (0x53, takeAckn), (0x54, takeEoas), (0x55, takeEoan),
   (0x60, takeRdfl), (0x61, takeClfl), (0x62, takeInjf), (0x70, takeLkcf), (0x71, takeLkst)]

/-- A command checked and worked (R171): a code that names no command is UNKNOWN. -/
def runCommand (c : Command) (s : State) : Reply × State :=
  match handlers.lookup c.code.toNat with
  | some h => h c.args s
  | none => refuse .unknown s

/-- One more reserved slot of the plant port's local queue (R164, R170). -/
def State.reserveSlot (s : State) : State := { s with plant := { s.plant with reserved := s.plant.reserved + 1 } }

/-- The command worked and in execution, with its answer fixed (R170, R172). -/
def State.execute (s : State) (c : Command) : State :=
  let r := runCommand c s.reserveSlot
  { r.2 with executing := some { command := c, reply := r.1, due := s.now + Config.answerMs } }

/-- The conditions of a take event (R170). -/
def State.mayTake (s : State) : Bool :=
  s.executing.isNone && decide (s.plant.slots < localCap .plant)

/-- The take event, where its conditions hold (R170). -/
def State.tryTake (s : State) : State :=
  match s.commands with
  | [] => s
  | c :: rest => if s.mayTake then { s with commands := rest }.execute c else s

/-- The ansr frame of a command (R172). -/
def State.ansrFrame (s : State) (c : Command) (r : Reply) : Frame :=
  { dest := c.source, src := s.address, kind := kindAnsr
    payload := [c.code, c.tag] ++ be 1 r.status.code ++ r.results }

/-- A command's arrival (R168, R169): queued, and taken at once where it may be; or refused FULL. -/
def State.arrive (s : State) (c : Command) : State :=
  if s.commands.length < 4 then { s with commands := s.commands ++ [c] }.tryTake
  else s.pushLocal .plant (s.ansrFrame c { status := .full })

/-- The payload of a cmnd frame to the part, at the command unit (R168): one too short for a code and a tag is
discarded. -/
def State.intake (s : State) (src : Byte) (payload : List Byte) : State :=
  match payload with
  | code :: tag :: args => s.arrive { source := src, code := code, tag := tag, args := args }
  | _ => s

/-- The answer placed (R172, R173): it fills its reserved slot; where the reservation has been emptied, or the plant
port is not UP, it is lost. DESIGN CHOICE: what counts is the port at the answer event, so the answer of a command taken
while the port was DOWN or OFFER goes out where the port is UP by then (R164, R173 over R170; log 43). -/
def State.placeAnswer (s : State) (x : InExecution) : State :=
  if s.plant.reserved = 0 then s
  else
    { s with plant := { s.plant with reserved := s.plant.reserved - 1 } }.pushLocal .plant
      (s.ansrFrame x.command x.reply)

/-- The answer event (R172), and the next take event where its conditions then hold (R170). -/
def State.answerEvent (s : State) : State :=
  match s.executing with
  | none => s
  | some x => { s.placeAnswer x with executing := none }.tryTake

/-- The answer of the command in execution has reached its latest instant (R172; log 3). -/
def State.answerDue (s : State) : Bool :=
  match s.executing with
  | none => false
  | some x => decide (x.due ≤ s.now)

end Sys2Proof.Machine
end

