-- ==== Sys2Proof/Machine/Frames.lean ====
section
/-! DEFINITION. The frame tap (09, R160) and the end-of-frame events of accepted and bad frames. -/

namespace Sys2Proof.Machine

/-- What the tap does with an accepted frame (R160): the block it is handed to takes it at this event. -/
def State.tap (s : State) (p : Side) (f : Frame) : State :=
  if f.kind = kindSmpl then
    match p with
    | .field => s.tapSmpl f.src f.payload
    | .plant => s
  else if f.kind = kindHelo then
    match p with
    | .field => s.tapHelo f.src f.payload
    | .plant => s
  else if f.kind = kindMark then
    if f.dest = s.address ∨ f.dest = 255#8 then s.takeMark f.src f.payload else s
  else if f.kind = kindCmnd then
    match p with
    | .field => s
    | .plant => if f.dest = s.address then s.intake f.src f.payload else s
  else s

/-- An accepted frame at its end-of-frame event on a port (R159 to R161): a port that is not UP receives nothing; a
payload of more than 248 bytes makes a bad frame (R159; log 30); otherwise it is forwarded and tapped. -/
def State.receive (s : State) (p : Side) (f : Frame) (begun : Begun) : State :=
  if (s.port p).link = .up then
    if f.payload.length ≤ 248 then (s.forward p f begun).tap p f else s.badEnd p f.bytes
  else s

/-- The end of a frame's bytes on a port, with or without its sender's abort mark, judged by R159. Bytes that R159
accepts are no bad frame: they are received as a frame that began since the last event (log 9). -/
def State.receiveBytes (s : State) (p : Side) (bytes : List Byte) (aborted : Bool) : State :=
  match acceptBytes bytes with
  | some f => if aborted then s.badEnd p bytes else s.receive p f {}
  | none => s.badEnd p bytes

end Sys2Proof.Machine
end

