-- ==== Sys2Proof/Machine/CommandRows.lean ====
section
/-! DEFINITION. The rows of the station commands: each is the arrival of that command at the command unit with its
arguments as R194 lays them out, taken at once where R170 allows (log 4); and the answer event. Every row ends with what the
attention unit does after an event (R179 to R181). -/

namespace Sys2Proof.Machine

/-- STAT (R178). -/
def execStat (src tag : Byte) (s : State) : Host.Outcome State Fault Refusal :=
  .next (settle (s.arrive { source := src, code := 0x01#8, tag := tag, args := [] }))

/-- RUNA (R15). -/
def execRuna (src tag : Byte) (s : State) : Host.Outcome State Fault Refusal :=
  .next (settle (s.arrive { source := src, code := 0x02#8, tag := tag, args := [] }))

/-- HLTA (R16). -/
def execHlta (src tag : Byte) (s : State) : Host.Outcome State Fault Refusal :=
  .next (settle (s.arrive { source := src, code := 0x03#8, tag := tag, args := [] }))

/-- CLRA (R17, R18). -/
def execClra (src tag : Byte) (s : State) : Host.Outcome State Fault Refusal :=
  .next (settle (s.arrive { source := src, code := 0x04#8, tag := tag, args := [] }))

/-- ISOL (R19). -/
def execIsol (src tag onOff : Byte) (s : State) : Host.Outcome State Fault Refusal :=
  .next (settle (s.arrive { source := src, code := 0x05#8, tag := tag, args := packFields [(1, onOff.toNat)] }))

/-- LDFN (R2, R3). -/
def execLdfn (src tag furnace state mode markSource : Byte) (length offset : BitVec 16) (blanking : Byte) (lowMass
    bandLow bandHigh : BitVec 32) (s : State) : Host.Outcome State Fault Refusal :=
  .next (settle (s.arrive { source := src, code := 0x10#8, tag := tag, args := packFields [(1, furnace.toNat), (1,
    state.toNat), (1, mode.toNat), (1, markSource.toNat), (2, length.toNat), (2, offset.toNat), (1,
    blanking.toNat), (4, lowMass.toNat), (4, bandLow.toNat), (4, bandHigh.toNat)] }))

/-- RDFN (R4). -/
def execRdfn (src tag furnace : Byte) (s : State) : Host.Outcome State Fault Refusal :=
  .next (settle (s.arrive { source := src, code := 0x11#8, tag := tag, args := packFields [(1, furnace.toNat)] }))

/-- LDLN (R5, R6). -/
def execLdln (src tag line furnace : Byte) (spacing timeout : BitVec 16) (stopAlert : Byte) (gobLow gobHigh :
    BitVec 16) (lowMass bandLow bandHigh : BitVec 32) (s : State) : Host.Outcome State Fault Refusal :=
  .next (settle (s.arrive { source := src, code := 0x12#8, tag := tag, args := packFields [(1, line.toNat), (1,
    furnace.toNat), (2, spacing.toNat), (2, timeout.toNat), (1, stopAlert.toNat), (2, gobLow.toNat), (2,
    gobHigh.toNat), (4, lowMass.toNat), (4, bandLow.toNat), (4, bandHigh.toNat)] }))

/-- RDLN (R7). -/
def execRdln (src tag line : Byte) (s : State) : Host.Outcome State Fault Refusal :=
  .next (settle (s.arrive { source := src, code := 0x13#8, tag := tag, args := packFields [(1, line.toNat)] }))

/-- JOBL (R8). -/
def execJobl (src tag line gobs : Byte) (weight : BitVec 16) (s : State) : Host.Outcome State Fault Refusal :=
  .next (settle (s.arrive { source := src, code := 0x14#8, tag := tag, args := packFields [(1, line.toNat), (1,
    gobs.toNat), (2, weight.toNat)] }))

/-- LDST (R22, R23). -/
def execLdst (src tag stream source channel category kind target formats : Byte) (modulus factor : BitVec 32)
    (maxRate : BitVec 24) (interval hold : BitVec 16) (sensitive : Byte) (s : State) : Host.Outcome State Fault
    Refusal :=
  .next (settle (s.arrive { source := src, code := 0x20#8, tag := tag, args := packFields [(1, stream.toNat), (1,
    source.toNat), (1, channel.toNat), (1, category.toNat), (1, kind.toNat), (1, target.toNat), (1, formats.toNat),
    (4, modulus.toNat), (4, factor.toNat), (3, maxRate.toNat), (2, interval.toNat), (2, hold.toNat), (1,
    sensitive.toNat)] }))

/-- RDST (R24). -/
def execRdst (src tag stream : Byte) (s : State) : Host.Outcome State Fault Refusal :=
  .next (settle (s.arrive { source := src, code := 0x21#8, tag := tag, args := packFields [(1, stream.toNat)] }))

/-- STEN (R25, R26). -/
def execSten (src tag stream onOff : Byte) (s : State) : Host.Outcome State Fault Refusal :=
  .next (settle (s.arrive { source := src, code := 0x22#8, tag := tag, args := packFields [(1, stream.toNat), (1,
    onOff.toNat)] }))

/-- LSTN (R49). -/
def execLstn (src tag : Byte) (s : State) : Host.Outcome State Fault Refusal :=
  .next (settle (s.arrive { source := src, code := 0x23#8, tag := tag, args := [] }))

/-- CLOS (R104). -/
def execClos (src tag group : Byte) (s : State) : Host.Outcome State Fault Refusal :=
  .next (settle (s.arrive { source := src, code := 0x30#8, tag := tag, args := packFields [(1, group.toNat)] }))

/-- SNAP (R141). -/
def execSnap (src tag group : Byte) (s : State) : Host.Outcome State Fault Refusal :=
  .next (settle (s.arrive { source := src, code := 0x31#8, tag := tag, args := packFields [(1, group.toNat)] }))

/-- RDSN (R143). -/
def execRdsn (src tag piece : Byte) (s : State) : Host.Outcome State Fault Refusal :=
  .next (settle (s.arrive { source := src, code := 0x32#8, tag := tag, args := packFields [(1, piece.toNat)] }))

/-- TAKE (R135). -/
def execTake (src tag piece group : Byte) (period : BitVec 32) (s : State) : Host.Outcome State Fault Refusal :=
  .next (settle (s.arrive { source := src, code := 0x33#8, tag := tag, args := packFields [(1, piece.toNat), (1,
    group.toNat), (4, period.toNat)] }))

/-- LOOK (R134). -/
def execLook (src tag piece : Byte) (s : State) : Host.Outcome State Fault Refusal :=
  .next (settle (s.arrive { source := src, code := 0x34#8, tag := tag, args := packFields [(1, piece.toNat)] }))

/-- RDTT (R139). -/
def execRdtt (src tag account : Byte) (s : State) : Host.Outcome State Fault Refusal :=
  .next (settle (s.arrive { source := src, code := 0x35#8, tag := tag, args := packFields [(1, account.toNat)] }))

/-- SETT (R95). -/
def execSett (src tag : Byte) (seconds : BitVec 32) (millis : BitVec 16) (s : State) : Host.Outcome State Fault
    Refusal :=
  .next (settle (s.arrive { source := src, code := 0x40#8, tag := tag, args := packFields [(4, seconds.toNat), (2,
    millis.toNat)] }))

/-- ADJT (R96). -/
def execAdjt (src tag : Byte) (offset : BitVec 32) (s : State) : Host.Outcome State Fault Refusal :=
  .next (settle (s.arrive { source := src, code := 0x41#8, tag := tag, args := packFields [(4, offset.toNat)] }))

/-- RDTM (R97). -/
def execRdtm (src tag : Byte) (s : State) : Host.Outcome State Fault Refusal :=
  .next (settle (s.arrive { source := src, code := 0x42#8, tag := tag, args := [] }))

/-- LDAT (R182). -/
def execLdat (src tag source priority mask nesting : Byte) (s : State) : Host.Outcome State Fault Refusal :=
  .next (settle (s.arrive { source := src, code := 0x50#8, tag := tag, args := packFields [(1, source.toNat), (1,
    priority.toNat), (1, mask.toNat), (1, nesting.toNat)] }))

/-- ATDS (R183). -/
def execAtds (src tag destination threshold : Byte) (s : State) : Host.Outcome State Fault Refusal :=
  .next (settle (s.arrive { source := src, code := 0x51#8, tag := tag, args := packFields [(1, destination.toNat),
    (1, threshold.toNat)] }))

/-- PEEK (R184). -/
def execPeek (src tag : Byte) (s : State) : Host.Outcome State Fault Refusal :=
  .next (settle (s.arrive { source := src, code := 0x52#8, tag := tag, args := [] }))

/-- ACKN (R185). -/
def execAckn (src tag : Byte) (s : State) : Host.Outcome State Fault Refusal :=
  .next (settle (s.arrive { source := src, code := 0x53#8, tag := tag, args := [] }))

/-- EOAS (R186). -/
def execEoas (src tag source : Byte) (s : State) : Host.Outcome State Fault Refusal :=
  .next (settle (s.arrive { source := src, code := 0x54#8, tag := tag, args := packFields [(1, source.toNat)] }))

/-- EOAN (R187). -/
def execEoan (src tag : Byte) (s : State) : Host.Outcome State Fault Refusal :=
  .next (settle (s.arrive { source := src, code := 0x55#8, tag := tag, args := [] }))

/-- RDFL (R151). -/
def execRdfl (src tag : Byte) (s : State) : Host.Outcome State Fault Refusal :=
  .next (settle (s.arrive { source := src, code := 0x60#8, tag := tag, args := [] }))

/-- CLFL (R152). -/
def execClfl (src tag : Byte) (s : State) : Host.Outcome State Fault Refusal :=
  .next (settle (s.arrive { source := src, code := 0x61#8, tag := tag, args := [] }))

/-- INJF (R153). -/
def execInjf (src tag region index kind : Byte) (s : State) : Host.Outcome State Fault Refusal :=
  .next (settle (s.arrive { source := src, code := 0x62#8, tag := tag, args := packFields [(1, region.toNat), (1,
    index.toNat), (1, kind.toNat)] }))

/-- LKCF (R166). -/
def execLkcf (src tag port rates threshold : Byte) (s : State) : Host.Outcome State Fault Refusal :=
  .next (settle (s.arrive { source := src, code := 0x70#8, tag := tag, args := packFields [(1, port.toNat), (1,
    rates.toNat), (1, threshold.toNat)] }))

/-- LKST (R167). -/
def execLkst (src tag port clear : Byte) (s : State) : Host.Outcome State Fault Refusal :=
  .next (settle (s.arrive { source := src, code := 0x71#8, tag := tag, args := packFields [(1, port.toNat), (1,
    clear.toNat)] }))

/-- UNKNOWN_COMMAND (R171): a command of a code outside the Command Index. -/
def execUnknownCommand (src tag code : Byte) (args : List Byte) (s : State) : Host.Outcome State Fault Refusal :=
  .next (settle (s.arrive { source := src, code := code, tag := tag, args := args }))

/-- ANSWER_EVENT (R172, R173). -/
def execAnswerEvent (s : State) : Host.Outcome State Fault Refusal := .next (settle s.answerEvent)

end Sys2Proof.Machine
end

