-- ==== Sys2Proof/Machine/EventRows.lean ====
section
/-! DEFINITION. The rows of the resets, the frames, the timers, the tally inputs, the clock and the close engine. A
timer's row acts where its timer is due and does nothing otherwise (log 7). -/

namespace Sys2Proof.Machine

/-! ### Resets -/

/-- The station address that strap levels give (R165). -/
def latchAddress (straps : Byte) : Byte := if straps = 0#8 ∨ straps = 255#8 then 254#8 else straps

/-- The part after a reset with these strap levels (R13, R20, R28, R91, R102, R103, R132, R138, R140, R155, R165, R176,
R188): every block at its reset values. The pins' levels and the interface's own fields stay (log 5, 6, 28). -/
def State.resetWith (s : State) (straps : Byte) (pthru : Bool) : State :=
  { State.reset with
    pending := s.pending
    fresh := s.fresh
    pins := s.pins
    address := latchAddress straps
    pthru := pthru
    run := if pthru then .pass else .idle }

/-- POWER_ON_RESET (R20). -/
def execPowerOnReset (straps : Byte) (pthru : Bool) (s : State) : Host.Outcome State Fault Refusal :=
  .next (settle (s.resetWith straps pthru))

/-- PIN_RESET (R20): as a power-on reset. -/
def execPinReset (straps : Byte) (pthru : Bool) (s : State) : Host.Outcome State Fault Refusal :=
  .next (settle (s.resetWith straps pthru))

/-! ### Frames -/

/-- CMND_RECEIVED (R160, R168, R169). -/
def execCmndReceived (port : Side) (dest src : Byte) (payload : Arrival) (s : State) :
    Host.Outcome State Fault Refusal :=
  .next (settle (s.receive port { dest := dest, src := src, kind := kindCmnd, payload := payload.bytes } payload.begun))

/-- SMPL_RECEIVED (R160, R29). -/
def execSmplReceived (dest src : Byte) (payload : Arrival) (s : State) :
    Host.Outcome State Fault Refusal :=
  .next (settle (s.receive .field { dest := dest, src := src, kind := kindSmpl, payload := payload.bytes } payload.begun))

/-- HELO_RECEIVED (R160, R29, R30). -/
def execHeloReceived (dest src : Byte) (payload : Arrival) (s : State) :
    Host.Outcome State Fault Refusal :=
  .next (settle (s.receive .field { dest := dest, src := src, kind := kindHelo, payload := payload.bytes } payload.begun))

/-- MARK_RECEIVED (R160, R105). -/
def execMarkReceived (port : Side) (dest src : Byte) (payload : Arrival) (s : State) :
    Host.Outcome State Fault Refusal :=
  .next (settle (s.receive port { dest := dest, src := src, kind := kindMark, payload := payload.bytes } payload.begun))

/-- FRAME_FORWARD_ONLY (R160, R161). The tap classifies the frame by its own fields. -/
def execFrameForwardOnly (port : Side) (dest src kind : Byte) (payload : Arrival) (s : State) :
    Host.Outcome State Fault Refusal :=
  .next (settle (s.receive port { dest := dest, src := src, kind := kind, payload := payload.bytes } payload.begun))

/-- BAD_FRAME (R159, R161). The bytes are judged by R159. -/
def execBadFrame (port : Side) (bytes : List Byte) (aborted : Bool) (s : State) :
    Host.Outcome State Fault Refusal :=
  .next (settle (s.receiveBytes port bytes aborted))

/-! ### Stream timers -/

/-- SELECT_TIMER_EXPIRY (R33). -/
def execSelectTimerExpiry (stream : Fin 48) (s : State) : Host.Outcome State Fault Refusal :=
  .next (settle (s.selectExpiry stream))

/-- STALE_TIMER_EXPIRY (R39, R40). -/
def execStaleTimerExpiry (stream : Fin 48) (s : State) : Host.Outcome State Fault Refusal :=
  .next (settle (s.staleExpiry stream))

/-- INTERVAL_TIMER_EXPIRY (R41, R63). -/
def execIntervalTimerExpiry (stream : Fin 48) (s : State) : Host.Outcome State Fault Refusal :=
  .next (settle (s.intervalExpiry stream))

/-- HOLD_TIMER_EXPIRY (R42, R40). -/
def execHoldTimerExpiry (stream : Fin 48) (s : State) : Host.Outcome State Fault Refusal :=
  .next (settle (s.holdExpiry stream))

/-! ### Tally inputs -/

/-- INPUT_PIN_CHANGE (R75). -/
def execInputPinChange (pin : Pin) (high : Bool) (s : State) : Host.Outcome State Fault Refusal :=
  .next (settle (s.pinChange pin high))

/-- CUT_EDGE (R77 to R79). -/
def execCutEdge (line : Fin 8) (s : State) : Host.Outcome State Fault Refusal := .next (settle (s.cutEdge line))

/-- REJ_EDGE (R82, R83). -/
def execRejEdge (line : Fin 8) (s : State) : Host.Outcome State Fault Refusal := .next (settle (s.rejEdge line))

/-- DIV_LEVEL_CHANGE (R75, R81). -/
def execDivLevelChange (line : Fin 8) (s : State) : Host.Outcome State Fault Refusal :=
  .next (settle (s.divChange line))

/-- REVERSAL (R88 to R90). -/
def execReversal (furnace : Fin 4) (s : State) : Host.Outcome State Fault Refusal :=
  .next (settle (s.revEdge furnace))

/-- END_OF_BLANKING (R90, R40). -/
def execEndOfBlanking (furnace : Fin 4) (s : State) : Host.Outcome State Fault Refusal :=
  .next (settle (s.blankingExpiry furnace))

/-- STOP_TIMER_EXPIRY (R84, R87). -/
def execStopTimerExpiry (line : Fin 8) (s : State) : Host.Outcome State Fault Refusal :=
  .next (settle (s.stopExpiry line))

/-- FALLING_EDGE (R75, R77, R82). -/
def execFallingEdge (pin : EdgePin) (s : State) : Host.Outcome State Fault Refusal :=
  .next (settle (s.fallingEdge pin))

/-! ### Clock and close engine -/

/-- SECOND_MARK (R86). -/
def execSecondMark (s : State) : Host.Outcome State Fault Refusal := .next (settle s.secondMark)

/-- BOUNDARY_EVENT (R99, R106). -/
def execBoundaryEvent (group : Fin 4) (s : State) : Host.Outcome State Fault Refusal :=
  .next (settle (s.boundaryEvent group))

/-- PLANT_SECONDS_WRAP (R93, R100). -/
def execPlantSecondsWrap (s : State) : Host.Outcome State Fault Refusal := .next (settle s.plantWrap)

/-- CLOSE_COMPLETION (R123, R124): the completion of a close in flight. -/
def execCloseCompletion (group : Fin 4) (s : State) : Host.Outcome State Fault Refusal :=
  .next (settle (s.complete group))

end Sys2Proof.Machine
end

