-- ==== Sys2Proof/Machine/LinkRows.lean ====
section
/-! DEFINITION. The rows of the links: signals, transmission and forwarding. A row that frees a slot of the plant
port's local queue, or empties it, takes the next command where R170 allows. -/

namespace Sys2Proof.Machine

/-- OFFER_BURST_SEND (R156). -/
def execOfferBurstSend (port : Side) (s : State) : Host.Outcome State Fault Refusal :=
  .next (settle (s.setPort port ((s.port port).sendBurst s.now)))

/-- LINK_SIGNAL_SEEN (R156). -/
def execLinkSignalSeen (port : Side) (signal : LinkSignal) (s : State) : Host.Outcome State Fault Refusal :=
  .next (settle (s.setPort port ((s.port port).firstSignal signal)))

/-- OFFER_BURST_RECEIVED (R157). -/
def execOfferBurstReceived (port : Side) (rates : RateSet) (s : State) : Host.Outcome State Fault Refusal :=
  .next (settle (s.setPort port ((s.port port).burstReceived rates)))

/-- IDLE_DETECTION (R157). -/
def execIdleDetection (port : Side) (seen : IdleSeen) (s : State) : Host.Outcome State Fault Refusal :=
  .next (settle (s.setPort port ((s.port port).idleDetected seen)))

/-- LINK_SIGNAL_LOSS (R158, R170). -/
def execLinkSignalLoss (port : Side) (s : State) : Host.Outcome State Fault Refusal :=
  .next (settle (s.signalLoss port).tryTake)

/-- PARTNER_RESTART (R158, R157, R170). -/
def execPartnerRestart (port : Side) (rates : RateSet) (s : State) : Host.Outcome State Fault Refusal :=
  .next (settle (s.partnerRestarts port rates).tryTake)

/-- TRANSMIT_START (R163, R164, R170). -/
def execTransmitStart (port : Side) (arrived : Arrival) (s : State) : Host.Outcome State Fault Refusal :=
  .next (settle (s.transmitStart port arrived).tryTake)

/-- FRAME_SENT (R161, R163). -/
def execFrameSent (port : Side) (s : State) : Host.Outcome State Fault Refusal := .next (settle (s.frameSent port))

/-- FORWARD_OVERRUN (R162). -/
def execForwardOverrun (port : Side) (arrived : Arrival) (s : State) : Host.Outcome State Fault Refusal :=
  .next (settle (s.forwardOverrun port arrived))

/-- FORWARD_UNDERRUN (R162). -/
def execForwardUnderrun (port : Side) (s : State) : Host.Outcome State Fault Refusal :=
  .next (settle (s.forwardUnderrun port))

end Sys2Proof.Machine
end

