-- ==== Sys2Proof/Machine/Dispatch.lean ====
section
/-! DEFINITION. The meaning of each row of the table: one direct call for each constructor of `Instr`. -/

namespace Sys2Proof.Machine

/-- The effect of a command of the table on the part, its queue of waiting commands apart. -/
def exec (i : Instr) (s : State) : Host.Outcome State Fault Refusal :=
  match i with
  | .powerOnReset straps pthru => Sys2Proof.Machine.execPowerOnReset straps pthru s
  | .pinReset straps pthru => Sys2Proof.Machine.execPinReset straps pthru s
  | .stat src tag => Sys2Proof.Machine.execStat src tag s
  | .runa src tag => Sys2Proof.Machine.execRuna src tag s
  | .hlta src tag => Sys2Proof.Machine.execHlta src tag s
  | .clra src tag => Sys2Proof.Machine.execClra src tag s
  | .isol src tag onOff => Sys2Proof.Machine.execIsol src tag onOff s
  | .ldfn src tag furnace state mode markSource length offset blanking lowMass bandLow bandHigh => Sys2Proof.Machine.execLdfn src tag furnace state mode markSource length offset blanking lowMass bandLow bandHigh s
  | .rdfn src tag furnace => Sys2Proof.Machine.execRdfn src tag furnace s
  | .ldln src tag line furnace spacing timeout stopAlert gobLow gobHigh lowMass bandLow bandHigh => Sys2Proof.Machine.execLdln src tag line furnace spacing timeout stopAlert gobLow gobHigh lowMass bandLow bandHigh s
  | .rdln src tag line => Sys2Proof.Machine.execRdln src tag line s
  | .jobl src tag line gobs weight => Sys2Proof.Machine.execJobl src tag line gobs weight s
  | .ldst src tag stream source channel category kind target formats modulus factor maxRate interval hold sensitive => Sys2Proof.Machine.execLdst src tag stream source channel category kind target formats modulus factor maxRate interval hold sensitive s
  | .rdst src tag stream => Sys2Proof.Machine.execRdst src tag stream s
  | .sten src tag stream onOff => Sys2Proof.Machine.execSten src tag stream onOff s
  | .lstn src tag => Sys2Proof.Machine.execLstn src tag s
  | .clos src tag group => Sys2Proof.Machine.execClos src tag group s
  | .snap src tag group => Sys2Proof.Machine.execSnap src tag group s
  | .rdsn src tag piece => Sys2Proof.Machine.execRdsn src tag piece s
  | .take src tag piece group period => Sys2Proof.Machine.execTake src tag piece group period s
  | .look src tag piece => Sys2Proof.Machine.execLook src tag piece s
  | .rdtt src tag account => Sys2Proof.Machine.execRdtt src tag account s
  | .sett src tag seconds millis => Sys2Proof.Machine.execSett src tag seconds millis s
  | .adjt src tag offset => Sys2Proof.Machine.execAdjt src tag offset s
  | .rdtm src tag => Sys2Proof.Machine.execRdtm src tag s
  | .ldat src tag source priority mask nesting => Sys2Proof.Machine.execLdat src tag source priority mask nesting s
  | .atds src tag destination threshold => Sys2Proof.Machine.execAtds src tag destination threshold s
  | .peek src tag => Sys2Proof.Machine.execPeek src tag s
  | .ackn src tag => Sys2Proof.Machine.execAckn src tag s
  | .eoas src tag source => Sys2Proof.Machine.execEoas src tag source s
  | .eoan src tag => Sys2Proof.Machine.execEoan src tag s
  | .rdfl src tag => Sys2Proof.Machine.execRdfl src tag s
  | .clfl src tag => Sys2Proof.Machine.execClfl src tag s
  | .injf src tag region index kind => Sys2Proof.Machine.execInjf src tag region index kind s
  | .lkcf src tag port rates threshold => Sys2Proof.Machine.execLkcf src tag port rates threshold s
  | .lkst src tag port clear => Sys2Proof.Machine.execLkst src tag port clear s
  | .unknownCommand src tag code args => Sys2Proof.Machine.execUnknownCommand src tag code args s
  | .answerEvent => Sys2Proof.Machine.execAnswerEvent s
  | .cmndReceived port dest src payload => Sys2Proof.Machine.execCmndReceived port dest src payload s
  | .smplReceived dest src payload => Sys2Proof.Machine.execSmplReceived dest src payload s
  | .heloReceived dest src payload => Sys2Proof.Machine.execHeloReceived dest src payload s
  | .markReceived port dest src payload => Sys2Proof.Machine.execMarkReceived port dest src payload s
  | .frameForwardOnly port dest src kind payload => Sys2Proof.Machine.execFrameForwardOnly port dest src kind payload s
  | .badFrame port bytes aborted => Sys2Proof.Machine.execBadFrame port bytes aborted s
  | .selectTimerExpiry stream => Sys2Proof.Machine.execSelectTimerExpiry stream s
  | .staleTimerExpiry stream => Sys2Proof.Machine.execStaleTimerExpiry stream s
  | .intervalTimerExpiry stream => Sys2Proof.Machine.execIntervalTimerExpiry stream s
  | .holdTimerExpiry stream => Sys2Proof.Machine.execHoldTimerExpiry stream s
  | .inputPinChange pin high => Sys2Proof.Machine.execInputPinChange pin high s
  | .cutEdge line => Sys2Proof.Machine.execCutEdge line s
  | .rejEdge line => Sys2Proof.Machine.execRejEdge line s
  | .divLevelChange line => Sys2Proof.Machine.execDivLevelChange line s
  | .reversal furnace => Sys2Proof.Machine.execReversal furnace s
  | .endOfBlanking furnace => Sys2Proof.Machine.execEndOfBlanking furnace s
  | .stopTimerExpiry line => Sys2Proof.Machine.execStopTimerExpiry line s
  | .secondMark => Sys2Proof.Machine.execSecondMark s
  | .boundaryEvent group => Sys2Proof.Machine.execBoundaryEvent group s
  | .plantSecondsWrap => Sys2Proof.Machine.execPlantSecondsWrap s
  | .closeCompletion group => Sys2Proof.Machine.execCloseCompletion group s
  | .offerBurstSend port => Sys2Proof.Machine.execOfferBurstSend port s
  | .linkSignalSeen port signal => Sys2Proof.Machine.execLinkSignalSeen port signal s
  | .offerBurstReceived port rates => Sys2Proof.Machine.execOfferBurstReceived port rates s
  | .idleDetection port seen => Sys2Proof.Machine.execIdleDetection port seen s
  | .linkSignalLoss port => Sys2Proof.Machine.execLinkSignalLoss port s
  | .partnerRestart port rates => Sys2Proof.Machine.execPartnerRestart port rates s
  | .transmitStart port arrived => Sys2Proof.Machine.execTransmitStart port arrived s
  | .frameSent port => Sys2Proof.Machine.execFrameSent port s
  | .forwardOverrun port arrived => Sys2Proof.Machine.execForwardOverrun port arrived s
  | .forwardUnderrun port => Sys2Proof.Machine.execForwardUnderrun port s
  | .fallingEdge pin => Sys2Proof.Machine.execFallingEdge pin s

end Sys2Proof.Machine
end

