-- ==== Sys2Proof/Machine/Tick.lean ====
section
/-! DEFINITION. The passage of time, which is what a step on an empty queue is (log 1): what is due and has not been
taken by a row is taken, in a fixed order (log 2), and both clocks advance by one millisecond. -/

namespace Sys2Proof.Machine

/-- The completion of a close at its latest instant (R110; log 3). -/
def State.forcedCompletion (s : State) (g : Fin 4) : State := if s.completionDue g then s.complete g else s

/-- The answer event at its latest instant (R172; log 3). -/
def State.forcedAnswer (s : State) : State := if s.answerDue then s.answerEvent else s

/-- The offer burst of a port (R156). -/
def State.burst (s : State) (p : Side) : State := s.setPort p ((s.port p).sendBurst s.now)

/-- The gaps between frames that no TRANSMIT_START has ended, which last less than a millisecond: each transmitter
chooses (R163; log 10), and a slot so freed lets the next command be taken (R170). -/
def State.closeGaps (s : State) : State := ((s.transmit .field).transmit .plant).tryTake

/-- The events that time brings, in the order in which a tick takes those that are due (log 2). -/
def timedEvents : List (State → State) :=
  [State.closeGaps, State.plantWrap] ++
  (List.finRange 4).map (fun g s => State.boundaryEvent s g) ++
  (List.finRange 8).map (fun l s => State.divChange s l) ++
  (List.finRange 8).map (fun l s => State.cutEdge s l) ++
  (List.finRange 8).map (fun l s => State.rejEdge s l) ++
  (List.finRange 8).map (fun l s => State.fallingEdge s (.cut l)) ++
  (List.finRange 8).map (fun l s => State.fallingEdge s (.rej l)) ++
  (List.finRange 4).map (fun f s => State.revEdge s f) ++
  (List.finRange 8).map (fun l s => State.stopExpiry s l) ++
  (List.finRange 4).map (fun f s => State.blankingExpiry s f) ++
  (List.finRange 48).map (fun k s => State.selectExpiry s k) ++
  (List.finRange 48).map (fun k s => State.staleExpiry s k) ++
  (List.finRange 48).map (fun k s => State.intervalExpiry s k) ++
  (List.finRange 48).map (fun k s => State.holdExpiry s k) ++
  [State.secondMark] ++
  (List.finRange 4).map (fun g s => State.forcedCompletion s g) ++
  [State.forcedAnswer, fun s => s.burst .field, fun s => s.burst .plant]

/-- What is due at the end of the present millisecond, each event followed by what follows every event. -/
def State.takeDue (s : State) : State := timedEvents.foldl (fun t event => settle (event t)) s

/-- One millisecond passes (R93, R94). -/
def State.tick (s : State) : State :=
  let s1 := s.takeDue
  { s1 with clock := s1.clock.advance }

end Sys2Proof.Machine
end

