-- ==== Sys2Proof/Safety.lean ====
section
/-! DEFINITION. The terms of the statements about the part: the conditions under which a command is taken at its
arrival, the state that a taken command leaves, and the invariants of the manual's prose. -/

namespace Sys2Proof.Machine

/-- A run of the part goes on: the step answers a next state. The manual has no event that stops the part (log 25), so
this is what a safe step is. -/
def State.goesOn (s : State) : Prop := ∃ t, step s = .next t

/-- A command arriving now is taken at once (R168, R170): no command is in execution or waits, and a slot of the plant
port's local queue is free. -/
def State.free (s : State) : Prop := s.executing = none ∧ s.commands = [] ∧ s.plant.slots < 6

/-- No stored item holds an error, and no injection is armed: every read finds what was written (R145). -/
def State.sound (s : State) : Prop := s.latent = [] ∧ s.check.armed = none

/-- The state after command `c` has been taken with answer `r`, where `e` is the state its effect gives on the state
with a slot reserved: the command is in execution, its answer event due 2 ms on (R170, R172), and the attention unit
has judged the event (R181). -/
def State.taken (s : State) (c : Command) (r : Reply) (e : State) : State :=
  settle { e with executing := some { command := c, reply := r, due := s.now + 2 } }

/-! ### Commands spelt from what they load -/

/-- R2: the fields of a furnace's configuration lie in their ranges. -/
def FurnaceConfig.InRange (c : FurnaceConfig) : Prop :=
  c.markSource ≤ 254 ∧ 1 ≤ c.length ∧ c.length ≤ 1440 ∧ c.offset ≤ 1439 ∧ c.blanking ≤ 120 ∧ c.lowMass ≤ cap32 ∧
    c.bandHigh ≤ cap32 ∧ c.bandLow ≤ c.bandHigh

/-- R5: the fields of a line's configuration lie in their ranges. -/
def LineConfig.InRange (c : LineConfig) : Prop :=
  10 ≤ c.spacing ∧ c.spacing ≤ 1000 ∧ 1 ≤ c.timeout ∧ c.timeout ≤ 600 ∧ 1 ≤ c.gobLow ∧ c.gobHigh ≤ 65535 ∧
    c.gobLow ≤ c.gobHigh ∧ c.lowMass ≤ cap32 ∧ c.bandHigh ≤ cap32 ∧ c.bandLow ≤ c.bandHigh

/-- R191: the numeric fields of a stream entry fit their widths; a modulus of 4,294,967,296 is sent as 0. -/
def StreamEntry.Fits (e : StreamEntry) : Prop :=
  1 ≤ e.modulus ∧ e.modulus ≤ 4294967296 ∧ e.factor ≤ cap32 ∧ e.maxRate ≤ 16777215

/-- The ldfn that loads a configuration (R194). -/
def ldfnOf (src tag : Byte) (f : Fin 4) (c : FurnaceConfig) : Instr :=
  .ldfn src tag (BitVec.ofNat 8 f.val) (BitVec.ofNat 8 (bitOf c.defined)) (BitVec.ofNat 8 c.mode.code)
    (BitVec.ofNat 8 c.markSource) (BitVec.ofNat 16 c.length) (BitVec.ofNat 16 c.offset) (BitVec.ofNat 8 c.blanking)
    (BitVec.ofNat 32 c.lowMass) (BitVec.ofNat 32 c.bandLow) (BitVec.ofNat 32 c.bandHigh)

/-- The ldln that loads a configuration (R194). -/
def ldlnOf (src tag : Byte) (l : Fin 8) (c : LineConfig) : Instr :=
  .ldln src tag (BitVec.ofNat 8 l.val)
    (match c.furnace with
      | none => 255#8
      | some f => BitVec.ofNat 8 f.val)
    (BitVec.ofNat 16 c.spacing) (BitVec.ofNat 16 c.timeout) (BitVec.ofNat 8 (bitOf c.stopAlert))
    (BitVec.ofNat 16 c.gobLow) (BitVec.ofNat 16 c.gobHigh) (BitVec.ofNat 32 c.lowMass) (BitVec.ofNat 32 c.bandLow)
    (BitVec.ofNat 32 c.bandHigh)

/-- The ldst that loads an entry (R194). -/
def ldstOf (src tag : Byte) (k : Fin 48) (e : StreamEntry) : Instr :=
  .ldst src tag (BitVec.ofNat 8 k.val) e.source (BitVec.ofNat 8 e.channel) (BitVec.ofNat 8 e.category.code)
    (BitVec.ofNat 8 e.kind.code) (BitVec.ofNat 8 e.target.number) (BitVec.ofNat 8 e.formats.mask)
    (BitVec.ofNat 32 e.modulus) (BitVec.ofNat 32 e.factor) (BitVec.ofNat 24 e.maxRate) (BitVec.ofNat 16 e.interval)
    (BitVec.ofNat 16 e.hold) (BitVec.ofNat 8 (bitOf e.sensitive))

/-- The command in execution is `code`, answered with `r` (R172). -/
def State.answers (t : State) (code : Byte) (r : Reply) : Prop :=
  ∃ x, t.executing = some x ∧ x.command.code = code ∧ x.reply = r

/-! ### Samples -/

/-- R190, R52, R53, R55: what the value bytes of a sample with format code `code` (0 in the short form) are to a stream
of entry `e` and live state `v` that counts in format `f` from `base`: `n` is the value as the base takes it, `q` the
sequence of a STEP sample, `d` the raw delta and `g` the gap count. A STEP repeat (R54) measures nothing. -/
def StreamEntry.Measures (e : StreamEntry) (v : StreamLive) (base code : Nat) (value : List Byte) (f : Format)
    (n d g : Nat) (q : Option Nat) : Prop :=
  (f = .total32 ∧ (code = 0 ∨ code = 1) ∧ value.length = 4 ∧ n = beNat value % e.modulus ∧ d < e.modulus ∧
      (base + d) % e.modulus = n ∧ g = 0 ∧ q = none) ∨
  (f = .total16 ∧ (code = 0 ∨ code = 3) ∧ value.length = 2 ∧ n = beNat value ∧ d < 65536 ∧
      (base + d) % 65536 = n ∧ g = 0 ∧ q = none) ∨
  (f = .step ∧ code = 2 ∧ ∃ hi lo sq p, value = [hi, lo, sq] ∧ n = hi.toNat * 256 + lo.toNat ∧ d = n ∧
      v.lastSeq = some p ∧ p ≤ 255 ∧ p ≠ sq.toNat ∧ g = (sq.toNat + 255 - p) % 256 ∧ q = some sq.toNat)

/-! ### Jumps of plant time -/

/-- R95, R96, R100, R101: what a taken sett or adjt makes of the groups, live sets and next boundaries of `s`, where
storage holds no error; `t` is the state after it, with the new plant time. In RUN and HALT the live sets of the defined
furnaces and assigned lines carry TIME-ADJUSTED. A group whose next boundary is reached is deferred while CLOSING; an
IDLE one swaps once with cause TIMED, its closing set carrying the marks and its fresh sets none. In IDLE and PASS no
group and no live set changes. -/
def State.Jumped (s t : State) : Prop :=
  let closes := s.run = .run ∨ s.run = .halt
  let reached (g : Fin 4) : Prop := ∃ b, s.boundary g = some b ∧ b ≤ t.clock.sec
  let swaps (g : Fin 4) : Prop := closes ∧ reached g ∧ (s.group g).closing = none
  (∀ g, let c := s.furnaceCfg g
    t.boundary g = (if c.defined ∧ c.mode ≠ .marked then nextBoundary c.offset c.length t.clock.sec else none) ∧
    (¬closes → t.group g = s.group g ∧ t.fLive g = s.fLive g) ∧
    (¬reached g → t.group g = s.group g) ∧
    (closes → reached g → (s.group g).closing.isSome → t.group g = { s.group g with deferred := true }) ∧
    (closes → ¬swaps g → t.fLive g = if c.defined then
      { s.fLive g with base := { (s.fLive g).base with flags := { (s.fLive g).base.flags with timeAdjusted := true } } }
      else s.fLive g) ∧
    (swaps g → c.defined = true → ∃ x, t.group g =
        { closing := some x, deferred := (s.group g).deferred, period := nextPeriod (s.group g).period } ∧
      x.cause = .timed ∧ x.period = (s.group g).period ∧
      x.furnace = { s.fLive g with
        base := { (s.fLive g).base with flags := { (s.fLive g).base.flags with timeAdjusted := true } } } ∧
      (x.lines.map fun y => (y.line, y.live)) = (s.linesOf g).map (fun l => (l, { s.lLive l with
        base := { (s.lLive l).base with flags := { (s.lLive l).base.flags with timeAdjusted := true } } })) ∧
      (t.fLive g).base.flags = {})) ∧
  ∀ l, (¬closes ∨ (s.lineCfg l).furnace = none → t.lLive l = s.lLive l) ∧
    ∀ g, (s.lineCfg l).furnace = some g →
      (closes → ¬swaps g → t.lLive l = { s.lLive l with
        base := { (s.lLive l).base with flags := { (s.lLive l).base.flags with timeAdjusted := true } } }) ∧
      (swaps g → (t.lLive l).base.flags = {})

/-! ### Invariants -/

/-- R132: at most 32 records; within a group, period numbers strictly increase from oldest to newest; the lost count
stays in its range. -/
def State.RecordsInOrder (s : State) : Prop :=
  s.records.length ≤ 32 ∧ s.lost ≤ 65535 ∧ s.records.Pairwise fun a b => a.group = b.group → a.period < b.period

/-- R14, R126: in IDLE and PASS every live set of every account is zero, and no close is in flight. -/
def State.ZeroOutsideAccounting (s : State) : Prop :=
  s.run = .idle ∨ s.run = .pass →
    (∀ f, s.fLive f = {}) ∧ (∀ l, s.lLive l = {}) ∧ ∀ g, (s.group g).closing = none

/-- R180: no two sources in service have the same priority. -/
def State.NoSharedPriority (s : State) : Prop :=
  ∀ x y : Source, s.attention.isInService x = true → s.attention.isInService y = true → x ≠ y →
    s.attention.prio x ≠ s.attention.prio y

/-- R164, R168: a local queue never holds more frames and reservations than its slots, and the command queue never more
than 4 commands. -/
def State.QueuesWithinBounds (s : State) : Prop :=
  (s.field.slots ≤ 4 ∧ s.plant.slots ≤ 6) ∧ s.commands.length ≤ 4

/-- R103: while a group is not CLOSING its deferred flag is clear. -/
def State.DeferredOnlyClosing (s : State) : Prop :=
  ∀ g, (s.group g).closing = none → (s.group g).deferred = false

/-- R21: no two loaded entries hold the same source and channel. -/
def State.PairsDistinct (s : State) : Prop :=
  ∀ j k a b, s.stream j = some a → s.stream k = some b → a.entry.source = b.entry.source →
    a.entry.channel = b.entry.channel → j = k

/-- R155, R156, R158: a port has a rate exactly in UP; a port that is not UP sends and receives no frame and holds none
in its local queue, in its buffer, or in the buffer that leaves through it. -/
def State.PortEmpty (s : State) (p : Side) : Prop :=
  ((s.port p).rate.isSome ↔ (s.port p).link = .up) ∧
  ((s.port p).link ≠ .up → (s.port p).localQueue = [] ∧ (s.port p).buffer = [] ∧ (s.port p.other).buffer = [] ∧
    (s.port p).tx = none ∧ (s.port p).rx = none)

/-- Both ports meet `State.PortEmpty`. -/
def State.PortsEmptyUnlessUp (s : State) : Prop := s.PortEmpty .field ∧ s.PortEmpty .plant

/-- R179 to R181: the level sources follow their conditions, and the last-alerted source is the highest eligible one,
or none where none is eligible. -/
def State.Alerted (s : State) : Prop :=
  s.attention.isPending .lstp = s.lstpHolds ∧ s.attention.isPending .qful = s.qfulHolds ∧
    s.attention.lastAlerted = s.attention.highest

/-- R9: the energy accumulators, credit and estimated tally lie within 48 bits, and the correction between its bounds. -/
def LiveBase.WithinCaps (b : LiveBase) : Prop :=
  (∀ k : Kind, b.energy.get k ≤ cap48) ∧ b.credit ≤ cap48 ∧ b.estimated ≤ cap48 ∧
    corrLow ≤ b.correction ∧ b.correction ≤ corrHigh

/-- R9: a mass within 48 bits of grams, with 0 to 9 tenths. -/
def Mass.WithinCaps (m : Mass) : Prop := m.grams ≤ cap48 ∧ m.tenths ≤ 9

/-- R9 for a furnace's live set. -/
def FurnaceLive.WithinCaps (x : FurnaceLive) : Prop :=
  x.base.WithinCaps ∧ x.charge ≤ cap48 ∧ x.cullet ≤ cap48

/-- R9 for a line's live set. -/
def LineLive.WithinCaps (x : LineLive) : Prop :=
  x.base.WithinCaps ∧ x.formed.WithinCaps ∧ x.diverted.WithinCaps ∧ x.rejected.WithinCaps

/-- R9: no accumulator of a live set passes its bounds. -/
def State.LiveWithinCaps (s : State) : Prop := (∀ f, (s.fLive f).WithinCaps) ∧ ∀ l, (s.lLive l).WithinCaps

end Sys2Proof.Machine
end

