-- ==== Sys2Proof/WellFormed.lean ====
section
/-! DEFINITION. Which commands of the table a sender can put to the part at all: the checks on operands that the
types of `Instr` do not make. The meanings are total and do not rely on them. -/

namespace Sys2Proof

/-- A sender's station address, 1 to 254 (12, "The frame"). -/
def stationOk (src : Byte) : Bool := src != 0#8 && src != 255#8

/-- A payload holds 0 to 248 bytes (12, "The frame"). -/
def payloadOk (payload : List Byte) : Bool := decide (payload.length ≤ 248)

/-- An offer burst names one or more rates (R157). -/
def burstOk (rates : RateSet) : Bool := rates.a || rates.b

/-- A link signal whose burst names one or more rates (R156, R157). -/
def signalOk : LinkSignal → Bool
  | .burst rates => burstOk rates
  | .idle _ => true

/-- The operands suit the row. -/
def wellFormed : Instr → Bool
  | .powerOnReset _ _ => true
  | .pinReset _ _ => true
  | .stat src _ => stationOk src
  | .runa src _ => stationOk src
  | .hlta src _ => stationOk src
  | .clra src _ => stationOk src
  | .isol src _ _ => stationOk src
  | .ldfn src _ _ _ _ _ _ _ _ _ _ _ => stationOk src
  | .rdfn src _ _ => stationOk src
  | .ldln src _ _ _ _ _ _ _ _ _ _ _ => stationOk src
  | .rdln src _ _ => stationOk src
  | .jobl src _ _ _ _ => stationOk src
  | .ldst src _ _ _ _ _ _ _ _ _ _ _ _ _ _ => stationOk src
  | .rdst src _ _ => stationOk src
  | .sten src _ _ _ => stationOk src
  | .lstn src _ => stationOk src
  | .clos src _ _ => stationOk src
  | .snap src _ _ => stationOk src
  | .rdsn src _ _ => stationOk src
  | .take src _ _ _ _ => stationOk src
  | .look src _ _ => stationOk src
  | .rdtt src _ _ => stationOk src
  | .sett src _ _ _ => stationOk src
  | .adjt src _ _ => stationOk src
  | .rdtm src _ => stationOk src
  | .ldat src _ _ _ _ _ => stationOk src
  | .atds src _ _ _ => stationOk src
  | .peek src _ => stationOk src
  | .ackn src _ => stationOk src
  | .eoas src _ _ => stationOk src
  | .eoan src _ => stationOk src
  | .rdfl src _ => stationOk src
  | .clfl src _ => stationOk src
  | .injf src _ _ _ _ => stationOk src
  | .lkcf src _ _ _ _ => stationOk src
  | .lkst src _ _ _ => stationOk src
  | .unknownCommand src _ code args =>
    stationOk src && !(Machine.commandCodes.contains code.toNat) && decide (args.length ≤ 246)
  | .answerEvent => true
  | .cmndReceived _ _ _ payload => payloadOk payload.bytes
  | .smplReceived _ _ payload => payloadOk payload.bytes
  | .heloReceived _ _ payload => payloadOk payload.bytes
  | .markReceived _ _ _ payload => payloadOk payload.bytes
  | .frameForwardOnly _ _ _ _ payload => payloadOk payload.bytes
  | .badFrame _ bytes aborted => decide (bytes.length ≤ 255) && (aborted || (Machine.acceptBytes bytes).isNone)
  | .selectTimerExpiry _ => true
  | .staleTimerExpiry _ => true
  | .intervalTimerExpiry _ => true
  | .holdTimerExpiry _ => true
  | .inputPinChange _ _ => true
  | .cutEdge _ => true
  | .rejEdge _ => true
  | .divLevelChange _ => true
  | .reversal _ => true
  | .endOfBlanking _ => true
  | .stopTimerExpiry _ => true
  | .secondMark => true
  | .boundaryEvent _ => true
  | .plantSecondsWrap => true
  | .closeCompletion _ => true
  | .offerBurstSend _ => true
  | .linkSignalSeen _ signal => signalOk signal
  | .offerBurstReceived _ rates => burstOk rates
  | .idleDetection _ _ => true
  | .linkSignalLoss _ => true
  | .partnerRestart _ rates => burstOk rates
  | .transmitStart _ arrived => decide (arrived.bytes.length ≤ 254)
  | .frameSent _ => true
  | .forwardOverrun _ arrived => decide (3 ≤ arrived.bytes.length ∧ arrived.bytes.length ≤ 255)
  | .forwardUnderrun _ => true
  | .fallingEdge _ => true

end Sys2Proof
end

