-- ==== Sys2Proof/Certificates/Slice0/Obligations.lean ====
section
/-! DEFINITION. The statements about the part, from the manual's rules. -/

open Sys2Proof Sys2Proof.Machine

/-! ### The interface and the whole machine -/

/-- A step takes the command at the front of the queue and is its meaning on the queue's rest. -/
def Obligations.StepRunsTheFrontCommand : Prop :=
  ∀ (c : Instr) (rest : List Instr) (s : State), step (s.withPending (c :: rest)) = exec c (s.withPending rest)

/-- No command touches the queue of waiting commands, and none stops the part (log 25, 28: the model's own choice).
R94, R165: no row but a reset moves the elapsed base, the latched station address or the latched PTHRU strap. -/
def Obligations.CommandsGoOnAndKeepQueueBaseAndStraps : Prop :=
  (∀ (c : Instr) (s : State), ∃ t, exec c s = .next t ∧ t.pending = s.pending) ∧
  (∀ (c : Instr) (s t : State), (∀ a h, c ≠ .powerOnReset a h) → (∀ a h, c ≠ .pinReset a h) → exec c s = .next t →
    t.clock.elapsed = s.clock.elapsed ∧ t.address = s.address ∧ t.pthru = s.pthru)

/-- R13, R20, R165: both resets give every block its reset values, with the strap address (0 and 255 become 254) and
the run state that PTHRU gives. The queue, the free-value counter and the pins' levels stay (log 5, 6, 28). -/
def Obligations.ResetsGiveResetValues : Prop :=
  ∀ (straps : Byte) (pthru : Bool) (s : State),
    let t : State := { State.reset with
      pending := s.pending, fresh := s.fresh, pins := s.pins, pthru := pthru
      address := if straps = 0#8 ∨ straps = 255#8 then 254#8 else straps
      run := if pthru then .pass else .idle }
    exec (.powerOnReset straps pthru) s = .next t ∧ exec (.pinReset straps pthru) s = .next t

/-- The state after reset meets every invariant below. -/
def Obligations.ResetMeetsTheInvariants : Prop :=
  State.reset.RecordsInOrder ∧ State.reset.ZeroOutsideAccounting ∧ State.reset.NoSharedPriority ∧
    State.reset.QueuesWithinBounds ∧ State.reset.DeferredOnlyClosing ∧ State.reset.PairsDistinct ∧
    State.reset.PortsEmptyUnlessUp ∧ State.reset.Alerted ∧ State.reset.LiveWithinCaps

/-- R132: every step keeps the record queue within 32 records and in order. -/
def Obligations.StepKeepsRecordsInOrder : Prop :=
  ∀ s t : State, s.RecordsInOrder → step s = .next t → t.RecordsInOrder

/-- R14: every step keeps the live sets zero in IDLE and PASS, with no close in flight there. R103: every step keeps
the deferred flag of a group that is not CLOSING clear. -/
def Obligations.StepKeepsZeroSetsAndDeferredFlags : Prop :=
  (∀ s t : State, s.ZeroOutsideAccounting → step s = .next t → t.ZeroOutsideAccounting) ∧
  (∀ s t : State, s.DeferredOnlyClosing → step s = .next t → t.DeferredOnlyClosing)

/-- R180: every step keeps the priorities of the sources in service distinct. R21: every step keeps the pairs of the
loaded stream entries distinct. -/
def Obligations.StepKeepsPrioritiesAndPairsDistinct : Prop :=
  (∀ s t : State, s.NoSharedPriority → step s = .next t → t.NoSharedPriority) ∧
  (∀ s t : State, s.PairsDistinct → step s = .next t → t.PairsDistinct)

/-- R164, R168: every step keeps the local queues and the command queue within their bounds. R155, R156, R158: every
step keeps a port that is not UP without rate, frames and transmission. -/
def Obligations.StepKeepsQueuesAndPorts : Prop :=
  (∀ s t : State, s.QueuesWithinBounds → step s = .next t → t.QueuesWithinBounds) ∧
  (∀ s t : State, s.PortsEmptyUnlessUp → step s = .next t → t.PortsEmptyUnlessUp)

/-- R9: every step keeps the accumulators of the live sets within their bounds. -/
def Obligations.StepKeepsLiveWithinCaps : Prop :=
  ∀ s t : State, s.LiveWithinCaps → step s = .next t → t.LiveWithinCaps

/-- R179 to R181: after every step the level sources follow their conditions, and the last-alerted source is the
highest eligible one. -/
def Obligations.EveryStepLeavesTheUnitAlerted : Prop :=
  ∀ s t : State, step s = .next t → t.Alerted

/-! ### Arithmetic -/

/-- R114, R115: where the masses sum to more than 0, the shares sum exactly to the net; an account that pulled nothing
takes none; each share is its quotient or 1 kJ more, and who takes 1 kJ more has the larger remainder, or the same and
the lower place. R115, R116: in a group record with pulled mass, the shares of the
entries sum to the furnace net and no unallotted energy is carried; without, every share is 0 and the unallotted
energy is the net. -/
def Obligations.SharesSumToTheNet : Prop :=
  (∀ (en : Nat) (ms : List Nat), 0 < ms.sum →
    (shares en ms).sum = en ∧ (shares en ms).length = ms.length ∧
    ∀ i (h : i < ms.length) (h' : i < (shares en ms).length),
      (shares en ms)[i] = en * ms[i] / ms.sum ∨
        (shares en ms)[i] = en * ms[i] / ms.sum + 1 ∧ 0 < en * ms[i] % ms.sum) ∧
  (∀ (en : Nat) (ms : List Nat) (i j : Nat), 0 < ms.sum → i < ms.length → j < ms.length →
    (shares en ms)[i]? = some (en * ms.getD i 0 / ms.sum + 1) → (shares en ms)[j]? = some (en * ms.getD j 0 / ms.sum) →
      en * ms.getD j 0 % ms.sum < en * ms.getD i 0 % ms.sum ∨
        en * ms.getD j 0 % ms.sum = en * ms.getD i 0 % ms.sum ∧ i < j) ∧
  (∀ (c : ClosingSet) (g : Fin 4),
    (0 < c.pulled → ((c.record g).lines.map (·.share)).sum = (c.record g).furnace.net ∧
      (c.record g).furnace.unallotted = none) ∧
    (c.pulled = 0 → (∀ e ∈ (c.record g).lines, e.share = 0) ∧
      (c.record g).furnace.unallotted = some (c.record g).furnace.net))

/-- R118, R131: a ratio is absent exactly without mass; its value is the exact ratio to the nearest kJ/t with a half
going up, or 4,294,967,295 with SAT where the exact ratio is that or more; LOW-MASS marks a mass above 0 and below the
threshold; REJ>FORM is as given. That SAT is set where the exact ratio is just 4,294,967,295 kJ/t is the model's choice,
its own reading of the two rules together (log 41). -/
def Obligations.RatioRoundsToNearest : Prop :=
  ∀ (e m low : Nat) (rof : Bool),
    ((ratioItem e m low rof).value = none ↔ m = 0) ∧ (ratioItem e m low rof).rejOverForm = rof ∧
    (m = 0 → (ratioItem e m low rof).lowMass = false ∧ (ratioItem e m low rof).sat = false) ∧
    ∀ v, (ratioItem e m low rof).value = some v →
      v ≤ 4294967295 ∧ ((ratioItem e m low rof).lowMass = true ↔ m < low) ∧
      (if (ratioItem e m low rof).sat then v = 4294967295 ∧ 2 * m * 4294967295 ≤ 2 * e * 1000000 + m
       else v < 4294967295 ∧ 2 * m * v ≤ 2 * e * 1000000 + m ∧ 2 * e * 1000000 + m < 2 * m * (v + 1))

/-- R52: the raw delta of a running total is the one amount below the modulus that takes the base to the value. R58,
R64: a conversion loses nothing but what the estimate's product drops below 1/65536: what is booked and what is
carried make up the amount, and less than 1 is carried. R67: a correction is rounded to the nearest kJ, an exact half
away from zero. -/
def Obligations.BookingArithmeticIsExact : Prop :=
  (∀ m base value : Nat, base < m → value < m →
    wrapDelta m base value < m ∧ (base + wrapDelta m base value) % m = value ∧
      ∀ d, d < m → (base + d) % m = value → d = wrapDelta m base value) ∧
  (∀ factor rem amount : Nat,
    ((convert factor rem amount).1 * 65536 + (convert factor rem amount).2 = amount * factor + rem ∧
      (convert factor rem amount).2 < 65536) ∧
    ((convertEstimate factor rem amount).1 * 65536 + (convertEstimate factor rem amount).2 =
        amount * factor / 65536 + rem ∧ (convertEstimate factor rem amount).2 < 65536)) ∧
  (∀ x : Int, roundCorrection (-x) = -roundCorrection x ∧
    (0 ≤ x → roundCorrection x * 4294967296 ≤ x + 2147483648 ∧ x + 2147483648 < (roundCorrection x + 1) * 4294967296))

/-- R98: the next boundary of a group is strictly later than plant time, lies on a boundary minute of the day, and no
boundary instant lies between. It is present whenever a boundary instant is left in the plant time range (that it is
absent where none is left is log 18). -/
def Obligations.NextBoundaryIsTheFirst : Prop :=
  ∀ offset length sec : Nat, 1 ≤ length → length ≤ 1440 → offset ≤ 1439 →
    let instant (u : Nat) : Prop := ∃ k, k * length < 1440 ∧ u % 86400 = 60 * ((offset + k * length) % 1440)
    (∀ t, nextBoundary offset length sec = some t →
      sec < t ∧ t ≤ 4294967295 ∧ instant t ∧ ∀ u, sec < u → instant u → t ≤ u) ∧
    ∀ u, sec < u → u ≤ 4294967295 → instant u → ∃ t, t ≤ u ∧ nextBoundary offset length sec = some t

/-! ### Encodings -/

/-- R159, R189: every frame with a payload of 0 to 248 bytes is accepted as itself from its own bytes. R194: the
argument bytes of fields within their widths read back as those fields. -/
def Obligations.BytesReadBack : Prop :=
  (∀ f : Frame, f.payload.length ≤ 248 → acceptBytes f.bytes = some f) ∧
  (∀ l : List (Nat × Nat), (∀ p ∈ l, p.2 < 256 ^ p.1) → fields (l.map (·.1)) (packFields l) = some (l.map (·.2)))

/-! ### The command unit -/

/-- R168: an accepted cmnd to the part, received on the plant port while no command can be taken and fewer than 4
wait, waits behind them. R168, R170 to R172: where no command is in execution and a slot is free, the oldest command of
the queue, which is the arriving one where none waits, is taken at once: it leaves the queue, a slot is reserved, and it
is worked and in execution with its answer fixed, due within 2 ms (log 3). R169: with 4 commands waiting an arriving one
is refused: a FULL answer where a slot is free, none otherwise; the command queue stays as it is. R168: a payload too
short for a code and a tag is discarded. -/
def Obligations.CommandsWaitOrAreRefusedFull : Prop :=
  (∀ (src code tag : Byte) (args : List Byte) (begun : Begun) (s : State), s.plant.link = .up → s.plant.rx = none →
    args.length ≤ 246 → s.commands.length < 4 → (s.executing.isSome ∨ 6 ≤ s.plant.slots) →
      exec (.cmndReceived .plant s.address src ⟨code :: tag :: args, begun⟩) s =
        .next (settle { s with commands := s.commands ++ [⟨src, code, tag, args⟩] })) ∧
  (∀ (src code tag : Byte) (args : List Byte) (begun : Begun) (s : State) (c : Command) (rest : List Command),
    s.plant.link = .up → s.plant.rx = none → args.length ≤ 246 → s.commands.length < 4 → s.executing = none →
    s.plant.slots < 6 → s.commands ++ [⟨src, code, tag, args⟩] = c :: rest →
      let r := runCommand c
        { s with commands := rest, plant := { s.plant with reserved := s.plant.reserved + 1 } }
      exec (.cmndReceived .plant s.address src ⟨code :: tag :: args, begun⟩) s =
        .next (settle { r.2 with
          executing := some { command := c, reply := r.1, due := s.clock.elapsed + 2 } })) ∧
  (∀ (src : Byte) (payload : List Byte) (begun : Begun) (s : State), s.plant.rx = none → payload.length < 2 →
    exec (.cmndReceived .plant s.address src ⟨payload, begun⟩) s = .next (settle s)) ∧
  (∀ (src code tag : Byte) (args : List Byte) (begun : Begun) (s : State), s.plant.link = .up → s.plant.rx = none →
    args.length ≤ 246 → s.commands.length = 4 →
      exec (.cmndReceived .plant s.address src ⟨code :: tag :: args, begun⟩) s =
        .next (settle (if s.plant.slots < 6 then
          { s with plant := { s.plant with localQueue := s.plant.localQueue ++
            [{ dest := src, src := s.address, kind := 6#8, payload := [code, tag, 5#8] }] } }
          else s)))

/-- R172, R173, R164: at the answer event the command leaves execution and its answer fills its reserved slot; it is
lost where the plant port is not UP, or the reservation has been emptied (an answer whose port is UP again goes out,
log 43). R170 to R172: with a command waiting and a slot then free, the oldest one is taken at once: it leaves the
queue, a slot is reserved, it is worked on the state with the answer placed, and it is in execution with its own
answer fixed, due within 2 ms (log 3). With none waiting, or no slot free, nothing else happens. An event with no
command in execution does nothing (log 7). -/
def Obligations.AnswerFillsItsSlotAndTheNextIsTaken : Prop :=
  (∀ s : State, s.executing = none → exec .answerEvent s = .next (settle s)) ∧
  ∀ (s : State) (x : InExecution), s.executing = some x → s.plant.slots ≤ 6 →
    let answer : Frame :=
      { dest := x.command.source, src := s.address, kind := 6#8
        payload := x.command.code :: x.command.tag :: BitVec.ofNat 8 x.reply.status.code :: x.reply.results }
    let placed : Port :=
      if s.plant.reserved = 0 then s.plant
      else { s.plant with
        reserved := s.plant.reserved - 1
        localQueue := if s.plant.link = .up then s.plant.localQueue ++ [answer] else s.plant.localQueue }
    let u : State := { s with executing := none, plant := placed }
    (s.commands = [] ∨ 6 ≤ placed.slots → exec .answerEvent s = .next (settle u)) ∧
    ∀ c rest, s.commands = c :: rest → placed.slots < 6 →
      let r := runCommand c { u with commands := rest, plant := { placed with reserved := placed.reserved + 1 } }
      exec .answerEvent s = .next (settle { r.2 with
        executing := some { command := c, reply := r.1, due := s.clock.elapsed + 2 } })

/-- R178, R49, R97, R151, R184: stat, lstn, rdtm, rdfl and peek answer with what they read, in every run state, and
change nothing; peek answers the highest eligible source with its priority and cause set, a cause map for STRM, a set of
accounts for RATO, a set of groups for PCLS and nothing for the others, or NONE where no source is eligible. R139: rdtt
answers the totals of the account, or BADARG past account 11, and changes nothing. R171: a taken command of a code
outside the Command Index is answered UNKNOWN and changes nothing else. The widths, codes and layout of stat's fields,
and of the optional fields, lists and counts of the others, are the model's where R191 names none (log 12). -/
def Obligations.ReadingCommandsAnswer : Prop :=
  (∀ (src tag : Byte) (s : State), s.free →
    let a := s.attention
    let mask (c : StreamCauses) : Nat := maskNat [c.stale, c.lost, c.jump, c.format, c.fault]
    let causes : Source → List Byte
      | .strm => listBytes (fun k : Fin 48 => be 1 k.val ++ be 1 (mask (vget a.strm k)))
          ((List.finRange 48).filter fun k => decide (mask (vget a.strm k) ≠ 0))
      | .rato => be 2 (maskNat (a.ratoFurnaces.toList ++ a.ratoLines.toList))
      | .pcls => be 1 (maskNat a.pcls.toList)
      | _ => []
    exec (.stat src tag) s = .next (s.taken ⟨src, 0x01#8, tag, []⟩
      ⟨.done,
        be 1 (match s.run with
          | .pass => 0
          | .idle => 1
          | .run => 2
          | .halt => 3) ++
        flagByte s.pthru ++ [s.address] ++ flagByte s.clock.timeSet ++ be 4 s.commands.length ++
        be 4 s.records.length ++ be 2 s.lost ++ be 1 (maskNat a.pending.toList) ++ be 1 (maskNat a.inService.toList) ++
        optBytes (fun x : Source => be 1 x.code.val) a.highest ++ be 2 s.check.uncorrectable ++
        be 2 s.check.corrected ++ flagByte s.check.first.isSome ++
        (List.finRange 4).flatMap fun g =>
          flagByte (s.group g).closing.isSome ++ flagByte (s.group g).deferred ++ flagByte (s.furnaceCfg g).defined⟩
      s.reserveSlot) ∧
    exec (.lstn src tag) s = .next (s.taken ⟨src, 0x23#8, tag, []⟩
      ⟨.done, listBytes (fun h : Heard => [h.source] ++ be 1 h.channel ++ [h.kind] ++ be 6 h.time) s.heard⟩
      s.reserveSlot) ∧
    exec (.rdtm src tag) s = .next (s.taken ⟨src, 0x42#8, tag, []⟩
      ⟨.done, be 4 s.clock.sec ++ be 2 s.clock.ms ++ flagByte s.clock.timeSet ++ be 6 s.clock.elapsed ++
        (List.finRange 4).flatMap fun g => optBytes (be 4) (s.boundary g)⟩ s.reserveSlot) ∧
    (let slot (x : FaultSlot) : List Byte := be 1 x.item.region ++ be 1 x.item.index ++ be 6 x.time
     exec (.rdfl src tag) s = .next (s.taken ⟨src, 0x60#8, tag, []⟩
      ⟨.done, optBytes slot s.check.first ++ optBytes slot s.check.latest ++
        be 2 s.check.uncorrectable ++ be 2 s.check.corrected ++
        optBytes (fun j : Injection => be 1 j.item.region ++ be 1 j.item.index ++ [if j.double then 2#8 else 1#8])
          s.check.armed ++
        be 2 (maskNat (s.check.furnaceMarks.toList ++ s.check.lineMarks.toList))⟩ s.reserveSlot)) ∧
    exec (.peek src tag) s = .next (s.taken ⟨src, 0x52#8, tag, []⟩
      (match a.highest with
        | none => ⟨.none, []⟩
        | some x => ⟨.done, be 1 x.code.val ++ be 1 (a.prio x) ++ causes x⟩) s.reserveSlot)) ∧
  (∀ (src tag : Byte) (s : State), s.free →
    (∀ f : Fin 4, let x := vget s.furnaceTotals f
      exec (.rdtt src tag (BitVec.ofNat 8 f.val)) s =
        .next (s.taken ⟨src, 0x35#8, tag, [BitVec.ofNat 8 f.val]⟩
          ⟨.done, be 6 x.net ++ be 6 x.unallotted ++ be 6 x.credit ++ be 6 x.estimated ++ be 6 x.charge ++
            be 6 x.cullet ++ be 6 x.pulled ++ be 4 x.closes ++ flagByte x.sat⟩ s.reserveSlot)) ∧
    (∀ l : Fin 8, let x := vget s.lineTotals l
      exec (.rdtt src tag (BitVec.ofNat 8 (l.val + 4))) s =
        .next (s.taken ⟨src, 0x35#8, tag, [BitVec.ofNat 8 (l.val + 4)]⟩
          ⟨.done, be 6 x.net ++ be 6 x.share ++ be 6 x.total ++ be 6 x.pulled ++ be 6 x.formed ++ be 6 x.diverted ++
            be 6 x.rejected ++ be 6 x.packed ++ be 6 x.cuts ++ be 4 x.closes ++ flagByte x.sat⟩ s.reserveSlot)) ∧
    ∀ a : Byte, 12 ≤ a.toNat → exec (.rdtt src tag a) s =
      .next (s.taken ⟨src, 0x35#8, tag, [a]⟩ ⟨.badarg, []⟩ s.reserveSlot)) ∧
  (∀ (src tag code : Byte) (args : List Byte) (s : State), s.free → code.toNat ∉ commandCodes →
    exec (.unknownCommand src tag code args) s =
      .next (s.taken ⟨src, code, tag, args⟩ ⟨.unknown, []⟩ s.reserveSlot))

/-- R4, R7, R24: where storage holds no error, rdfn, rdln and rdst answer what stands and change nothing: rdfn the
configuration of the furnace, its lines, close state, deferred flag and period number; rdln the configuration, job
record and running condition of the line; rdst the entry and its whole live state, or the empty mark. A number out of
range is BADARG. The layout of rdst's live state (widths, presence bytes) and of rdfn's list of lines is the model's
(log 12). -/
def Obligations.AccountsAndStreamsRead : Prop :=
  ∀ (src tag : Byte) (s : State), s.free → s.sound →
    (∀ f : Fin 4, let c := s.furnaceCfg f
      exec (.rdfn src tag (BitVec.ofNat 8 f.val)) s =
      .next (s.taken ⟨src, 0x11#8, tag, [BitVec.ofNat 8 f.val]⟩
        ⟨.done, flagByte c.defined ++
          be 1 (match c.mode with
            | .marked => 0
            | .timed => 1
            | .both => 2) ++
          be 1 c.markSource ++ be 2 c.length ++ be 2 c.offset ++ be 1 c.blanking ++ be 4 c.lowMass ++
          be 4 c.bandLow ++ be 4 c.bandHigh ++ listBytes (fun l : Fin 8 => be 1 l.val) (s.linesOf f) ++
          flagByte (s.group f).closing.isSome ++ flagByte (s.group f).deferred ++ be 4 (s.group f).period⟩
        s.reserveSlot)) ∧
    (∀ l : Fin 8, let c := s.lineCfg l
      exec (.rdln src tag (BitVec.ofNat 8 l.val)) s =
      .next (s.taken ⟨src, 0x13#8, tag, [BitVec.ofNat 8 l.val]⟩
        ⟨.done, (match c.furnace with
            | none => [255#8]
            | some f => be 1 f.val) ++
          be 2 c.spacing ++ be 2 c.timeout ++ flagByte c.stopAlert ++ be 2 c.gobLow ++ be 2 c.gobHigh ++
          be 4 c.lowMass ++ be 4 c.bandLow ++ be 4 c.bandHigh ++ be 1 (s.job l).gobs ++ be 2 (s.job l).weight ++
          flagByte (s.lineInput l).running⟩ s.reserveSlot)) ∧
    (∀ k : Fin 48, exec (.rdst src tag (BitVec.ofNat 8 k.val)) s =
      .next (s.taken ⟨src, 0x21#8, tag, [BitVec.ofNat 8 k.val]⟩
        ⟨.done, match s.stream k with
          | none => [0#8]
          | some st =>
            let e := st.entry
            let v := st.live
            [1#8, e.source] ++ be 1 e.channel ++ be 1 e.category.code ++ be 1 e.kind.code ++ be 1 e.target.number ++
              be 1 (maskNat [e.formats.total32, e.formats.step, e.formats.total16, e.formats.value]) ++
              be 4 e.modulus ++ be 4 e.factor ++ be 3 e.maxRate ++ be 2 e.interval ++ be 2 e.hold ++
              flagByte e.sensitive ++ be 1 v.state.code ++ optBytes (fun f : Format => be 1 f.code) v.format ++
              flagByte v.inferred ++ optBytes (be 4) v.base ++ optBytes (be 1) v.lastSeq ++
              optBytes (be 6) v.lastGood ++ be 6 v.heldRate ++ be 6 (v.pending / 65536) ++ be 2 (v.pending % 65536) ++
              be 2 v.remainder ++ be 1 v.attempts ++ flagByte v.adoptOnly ++ flagByte v.deferral ++
              be 4 v.counts.jumps ++ be 4 v.counts.formatFaults ++ be 4 v.counts.repeats ++ be 4 v.counts.gaps ++
              be 4 v.counts.weightHolds⟩ s.reserveSlot)) ∧
    (∀ n : Byte, 4 ≤ n.toNat → exec (.rdfn src tag n) s =
      .next (s.taken ⟨src, 0x11#8, tag, [n]⟩ ⟨.badarg, []⟩ s.reserveSlot)) ∧
    (∀ n : Byte, 8 ≤ n.toNat → exec (.rdln src tag n) s =
      .next (s.taken ⟨src, 0x13#8, tag, [n]⟩ ⟨.badarg, []⟩ s.reserveSlot)) ∧
    ∀ n : Byte, 48 ≤ n.toNat → exec (.rdst src tag n) s =
      .next (s.taken ⟨src, 0x21#8, tag, [n]⟩ ⟨.badarg, []⟩ s.reserveSlot)

/-! ### Accounts and run states -/

/-- R15, R16: runa enters RUN from IDLE and HALT where a furnace is DEFINED; from IDLE the start times of the accounts
in use are the runa event. R45: at a runa that enters RUN the held-stream sets of those accounts gain the streams that
are STALE or LOST, from HALT too (log 14). Without a furnace, and in PASS, it is refused; in RUN it changes nothing.
hlta takes RUN to HALT and is refused elsewhere. Storage holds no error. -/
def Obligations.RunStateCommands : Prop :=
  ∀ (src tag : Byte) (s : State), s.free → s.sound →
    let joined (b : LiveBase) (a : Account) : LiveBase := { b with
      held := vgen fun k => vget b.held k || vget (s.silentFor a) k
      start := if s.run = .idle then s.stamp else b.start }
    ((s.run = .idle ∨ s.run = .halt) → (∃ f, (s.furnaceCfg f).defined = true) →
      exec (.runa src tag) s = .next (s.taken ⟨src, 0x02#8, tag, []⟩ ⟨.done, []⟩ { s.reserveSlot with
        run := .run
        furnaceLive := vgen fun f =>
          if (s.furnaceCfg f).defined then { s.fLive f with base := joined (s.fLive f).base (.furnace f) }
          else s.fLive f
        lineLive := vgen fun l =>
          if s.assigned l then { s.lLive l with base := joined (s.lLive l).base (.line l) } else s.lLive l })) ∧
    ((s.run = .pass ∨ s.run ≠ .run ∧ ∀ f, (s.furnaceCfg f).defined = false) →
      exec (.runa src tag) s = .next (s.taken ⟨src, 0x02#8, tag, []⟩ ⟨.state, []⟩ s.reserveSlot)) ∧
    (s.run = .run →
      exec (.runa src tag) s = .next (s.taken ⟨src, 0x02#8, tag, []⟩ ⟨.done, []⟩ s.reserveSlot)) ∧
    exec (.hlta src tag) s = .next
      (if s.run = .run then
        s.taken ⟨src, 0x03#8, tag, []⟩ ⟨.done, []⟩ { s.reserveSlot with run := .halt }
       else s.taken ⟨src, 0x03#8, tag, []⟩ ⟨.state, []⟩ s.reserveSlot)

/-- R17 to R19, R76, R91, R154, R188: the accounting clear, by clra outside RUN and by isol on in every run state: the
live sets, closes, records, totals, snapshot and heard list, the requests with their cause sets, the sources in
service and the last-alerted source, and every field of the inputs are emptied; in IDLE the inputs of the accounts in
use are tracked from the pins' levels; streams not in OFF go to WAIT; an injection on a queued record is disarmed.
Nothing else changes: configurations, jobs, clock, fault record, ports, priorities and the command queue stay. clra in
RUN is refused. Eligibility is then judged afresh (`State.taken`). -/
def Obligations.AccountingClear : Prop :=
  ∀ (src tag : Byte) (s : State), s.free →
    (∀ (c : Instr) (cmd : Command) (r : RunState),
      (c = .clra src tag ∧ cmd = ⟨src, 0x04#8, tag, []⟩ ∧ s.run ≠ .run ∧ r = (if s.run = .pass then .pass else .idle)) ∨
      (c = .isol src tag 1#8 ∧ cmd = ⟨src, 0x05#8, tag, [1#8]⟩ ∧ r = .pass) →
      exec c s = .next (s.taken cmd ⟨.done, []⟩ { s.reserveSlot with
        run := r
        furnaceLive := Vector.replicate 4 {}
        lineLive := Vector.replicate 8 {}
        groups := Vector.replicate 4 { closing := none, deferred := false, period := 1 }
        streams := vgen fun k => (s.stream k).map fun st =>
          if st.live.state = .off then st else { st with live := { state := .wait } }
        heard := []
        records := []
        lost := 0
        snapshot := none
        furnaceTotals := Vector.replicate 4 {}
        lineTotals := Vector.replicate 8 {}
        lineInputs := vgen fun l =>
          if r = .idle ∧ s.assigned l then
            { cut := some { level := vget s.pins.cut l }, rej := some { level := vget s.pins.rej l }
              div := some { level := vget s.pins.div l } }
          else {}
        furnaceInputs := vgen fun f =>
          if r = .idle ∧ (s.furnaceCfg f).defined then { rev := some { level := vget s.pins.rev f } } else {}
        attention := { s.attention with
          pending := Vector.replicate 7 false
          inService := Vector.replicate 7 false
          strm := Vector.replicate 48 {}
          ratoFurnaces := Vector.replicate 4 false
          ratoLines := Vector.replicate 8 false
          pcls := Vector.replicate 4 false
          lastAlerted := none }
        check := { s.check with armed := s.check.armed.filter fun j =>
          match j.item with
          | .queue _ => false
          | _ => true }
        latent := s.latent.filter fun p =>
          match p.1 with
          | .stream k => !s.enabled k
          | .config _ => true
          | _ => false })) ∧
    (s.run = .run →
      exec (.clra src tag) s = .next (s.taken ⟨src, 0x04#8, tag, []⟩ ⟨.state, []⟩ s.reserveSlot))

/-- R19, R76: isol off takes PASS to IDLE, where the inputs of assigned lines and defined furnaces are tracked from
the pins' levels and the lines are STOPPED; in other run states it changes nothing; an argument that is neither off
nor on is BADARG. -/
def Obligations.IsolateOff : Prop :=
  ∀ (src tag : Byte) (s : State), s.free →
    (s.run = .pass → ∃ t, exec (.isol src tag 0#8) s = .next t ∧ t.answers 0x05#8 ⟨.done, []⟩ ∧ t.run = .idle ∧
      (∀ l, s.assigned l = true → (t.lineInput l).cut = some { level := vget s.pins.cut l } ∧
        (t.lineInput l).rej = some { level := vget s.pins.rej l } ∧
        (t.lineInput l).div = some { level := vget s.pins.div l } ∧ (t.lineInput l).running = false) ∧
      (∀ f, (s.furnaceCfg f).defined = true → (t.furnaceInput f).rev = some { level := vget s.pins.rev f }) ∧
      t.furnaceLive = s.furnaceLive ∧ t.lineLive = s.lineLive ∧ t.groups = s.groups ∧ t.streams = s.streams ∧
      t.furnaces = s.furnaces ∧ t.lines = s.lines ∧ t.jobs = s.jobs ∧ t.records = s.records ∧ t.clock = s.clock) ∧
    (s.run ≠ .pass → exec (.isol src tag 0#8) s =
      .next (s.taken ⟨src, 0x05#8, tag, [0#8]⟩ ⟨.done, []⟩ s.reserveSlot)) ∧
    ∀ b : Byte, 2 ≤ b.toNat → exec (.isol src tag b) s =
      .next (s.taken ⟨src, 0x05#8, tag, [b]⟩ ⟨.badarg, []⟩ s.reserveSlot)

/-- R2, R3, R98: an ldfn with its fields in range loads them all at once, unless a furnace would become UNUSED that
lines, streams or a close still use. The group's period number is kept, its live set is zero where the state field
changes (with the start time in RUN and HALT where it becomes DEFINED), and its next boundary is computed anew. R76,
R90: a furnace that becomes DEFINED outside PASS has its REV filter start at the pin's level; one that becomes UNUSED
loses it, and its blanking ends; else its input state stays. No other account changes. Storage holds no error. A
furnace number past 3, a field out of its range and a band whose high value is below its low one are BADARG. -/
def Obligations.FurnaceLoads : Prop :=
  (∀ (src tag : Byte) (f : Fin 4) (c : FurnaceConfig) (s : State), s.free → s.sound → c.InRange →
    let was := (s.furnaceCfg f).defined
    let held := was = true ∧ c.defined = false ∧
      (s.linesOf f ≠ [] ∨ s.targeted (.furnace f) = true ∨ (s.group f).closing.isSome)
    let x := s.furnaceInput f
    (held → ∃ t, exec (ldfnOf src tag f c) s = .next t ∧ t.answers 0x10#8 ⟨.state, []⟩ ∧ t.furnaces = s.furnaces ∧
      t.groups = s.groups ∧ t.furnaceLive = s.furnaceLive ∧ t.clock = s.clock ∧ t.furnaceInputs = s.furnaceInputs) ∧
    (¬held → ∃ t, exec (ldfnOf src tag f c) s = .next t ∧ t.answers 0x10#8 ⟨.done, []⟩ ∧
      t.furnaceCfg f = c ∧ (∀ i, i ≠ f → t.furnaceCfg i = s.furnaceCfg i ∧ t.fLive i = s.fLive i ∧
        t.group i = s.group i ∧ t.boundary i = s.boundary i ∧ t.furnaceInput i = s.furnaceInput i) ∧
      (t.group f).period = (s.group f).period ∧
      (was = c.defined → t.fLive f = s.fLive f ∧ t.group f = s.group f) ∧
      (was ≠ c.defined → (t.group f).deferred = false ∧
        t.fLive f = if c.defined ∧ (s.run = .run ∨ s.run = .halt) then { base := { start := s.stamp } } else {}) ∧
      t.furnaceInput f = (if was = c.defined then x
        else if c.defined then (if s.run = .pass then x else { x with rev := some { level := vget s.pins.rev f } })
        else { x with rev := none, blankingEnd := none }) ∧
      t.boundary f = (if c.defined ∧ c.mode ≠ .marked ∧ s.clock.timeSet then
        nextBoundary c.offset c.length s.clock.sec else none) ∧
      t.lines = s.lines ∧ t.jobs = s.jobs ∧ t.lineLive = s.lineLive ∧ t.lineInputs = s.lineInputs ∧
      t.streams = s.streams ∧ t.run = s.run ∧ t.records = s.records)) ∧
  ∀ (src tag f st md ms bl : Byte) (len off : BitVec 16) (low lo hi : BitVec 32) (s : State), s.free →
    3 < f.toNat ∨ 1 < st.toNat ∨ 2 < md.toNat ∨ 254 < ms.toNat ∨ len.toNat < 1 ∨ 1440 < len.toNat ∨ 1439 < off.toNat ∨
      120 < bl.toNat ∨ hi.toNat < lo.toNat →
    exec (.ldfn src tag f st md ms len off bl low lo hi) s = .next (s.taken
      ⟨src, 0x10#8, tag, [f, st, md, ms] ++ be 2 len.toNat ++ be 2 off.toNat ++ [bl] ++ be 4 low.toNat ++
        be 4 lo.toNat ++ be 4 hi.toNat⟩ ⟨.badarg, []⟩ s.reserveSlot)

/-- R5, R6, R85: an ldln with its fields in range loads them all at once; it is BADARG where it names an UNUSED furnace,
and STATE where it changes the assignment outside IDLE or takes a line out of use that a stream still targets. A line
that stays in use, moved between furnaces too, keeps its input state; but a changed stop timeout moves the stop timer of
a RUNNING line to the last cut time plus the new timeout, and where that is now or past the line is STOPPED. The job
data is kept, and no other line changes. Storage holds no error. A line number past 7, a field out of its range and a
band whose high value is below its low one are BADARG. -/
def Obligations.LineLoads : Prop :=
  (∀ (src tag : Byte) (l : Fin 8) (c : LineConfig) (s : State), s.free → s.sound → c.InRange →
    let bad := ∃ f, c.furnace = some f ∧ (s.furnaceCfg f).defined = false
    let held := (c.furnace ≠ (s.lineCfg l).furnace ∧ s.run ≠ .idle) ∨
      (c.furnace = none ∧ s.targeted (.line l) = true)
    let x := s.lineInput l
    (bad → ∃ t, exec (ldlnOf src tag l c) s = .next t ∧ t.answers 0x12#8 ⟨.badarg, []⟩ ∧ t.lines = s.lines ∧
      t.lineInputs = s.lineInputs) ∧
    (¬bad → held → ∃ t, exec (ldlnOf src tag l c) s = .next t ∧ t.answers 0x12#8 ⟨.state, []⟩ ∧ t.lines = s.lines ∧
      t.lineInputs = s.lineInputs) ∧
    (¬bad → ¬held → ∃ t, exec (ldlnOf src tag l c) s = .next t ∧ t.answers 0x12#8 ⟨.done, []⟩ ∧ t.lineCfg l = c ∧
      (∀ i, i ≠ l → t.lineCfg i = s.lineCfg i ∧ t.lineInput i = s.lineInput i) ∧
      ((s.lineCfg l).furnace = none → c.furnace.isSome → (t.lineInput l).running = false ∧
        (t.lineInput l).lastCut = none ∧ (t.lineInput l).cut = some { level := vget s.pins.cut l } ∧
        (t.lineInput l).rej = some { level := vget s.pins.rej l } ∧
        (t.lineInput l).div = some { level := vget s.pins.div l }) ∧
      (c.furnace = none → (s.lineCfg l).furnace.isSome → (t.lineInput l).running = false ∧
        (t.lineInput l).cut = none ∧ (t.lineInput l).rej = none ∧ (t.lineInput l).div = none) ∧
      ((s.lineCfg l).furnace.isSome = c.furnace.isSome →
        (c.timeout = (s.lineCfg l).timeout ∨ x.running = false ∨ x.lastCut = none → t.lineInput l = x) ∧
        (c.timeout ≠ (s.lineCfg l).timeout → x.running = true → ∀ u, x.lastCut = some u →
          t.lineInput l = if u + c.timeout * 1000 ≤ s.clock.elapsed then { x with running := false, stopAt := none }
            else { x with stopAt := some (u + c.timeout * 1000) })) ∧
      t.jobs = s.jobs ∧ t.furnaces = s.furnaces ∧ t.lineLive = s.lineLive ∧ t.groups = s.groups ∧
      t.streams = s.streams ∧ t.run = s.run ∧ t.records = s.records)) ∧
  ∀ (src tag l f al : Byte) (sp tm gl gh : BitVec 16) (low lo hi : BitVec 32) (s : State), s.free →
    7 < l.toNat ∨ (3 < f.toNat ∧ f ≠ 255#8) ∨ sp.toNat < 10 ∨ 1000 < sp.toNat ∨ tm.toNat < 1 ∨ 600 < tm.toNat ∨
      1 < al.toNat ∨ gl.toNat < 1 ∨ gh.toNat < gl.toNat ∨ hi.toNat < lo.toNat →
    exec (.ldln src tag l f sp tm al gl gh low lo hi) s = .next (s.taken
      ⟨src, 0x12#8, tag, [l, f] ++ be 2 sp.toNat ++ be 2 tm.toNat ++ [al] ++ be 2 gl.toNat ++ be 2 gh.toNat ++
        be 4 low.toNat ++ be 4 lo.toNat ++ be 4 hi.toNat⟩ ⟨.badarg, []⟩ s.reserveSlot)

/-- R8: a jobl in range and in the line's gob-weight band replaces the job record of an assigned line and, in RUN,
adds one job change to its live set; outside its ranges or band it is BADARG, on an UNUSED line STATE. Storage holds
no error. -/
def Obligations.JobLoads : Prop :=
  ∀ (src tag : Byte) (l : Fin 8) (gobs : Byte) (weight : BitVec 16) (s : State), s.free → s.sound →
    let args := [BitVec.ofNat 8 l.val, gobs] ++ be 2 weight.toNat
    let ok := 1 ≤ gobs.toNat ∧ gobs.toNat ≤ 4 ∧ 1 ≤ weight.toNat ∧ (s.lineCfg l).gobLow ≤ weight.toNat ∧
      weight.toNat ≤ (s.lineCfg l).gobHigh
    let loaded := { s.reserveSlot with jobs := vset s.jobs l { gobs := gobs.toNat, weight := weight.toNat } }
    (¬ok → exec (.jobl src tag (BitVec.ofNat 8 l.val) gobs weight) s =
      .next (s.taken ⟨src, 0x14#8, tag, args⟩ ⟨.badarg, []⟩ s.reserveSlot)) ∧
    (ok → s.assigned l = false → exec (.jobl src tag (BitVec.ofNat 8 l.val) gobs weight) s =
      .next (s.taken ⟨src, 0x14#8, tag, args⟩ ⟨.state, []⟩ s.reserveSlot)) ∧
    (ok → s.assigned l = true → exec (.jobl src tag (BitVec.ofNat 8 l.val) gobs weight) s =
      .next (s.taken ⟨src, 0x14#8, tag, args⟩ ⟨.done, []⟩
        (if s.run = .run then
          loaded.setLLive l { s.lLive l with jobChanges := min 4294967295 ((s.lLive l).jobChanges + 1) }
         else loaded)))

/-! ### Streams -/

/-- R22, R23, R48: an ldst that passes its checks on an entry that is empty or in OFF loads it with the OFF live state
and takes its pair out of the heard list; on an enabled stream it is STATE. It is BADARG where source, channel,
interval or hold time is out of range, where the target is out of use or does not suit the category, where the formats
do not suit it or are none, where a counting category has no factor or rate, where a TOTAL32 modulus is below 2, where
reversal-sensitive is yes but for an energy stream of a furnace, where the hold time is not above three intervals, and
where another entry holds the pair. Storage holds no error. -/
def Obligations.StreamLoads : Prop :=
  ∀ (src tag : Byte) (k : Fin 48) (e : StreamEntry) (s : State), s.free → s.sound → e.Fits →
    e.channel ≤ 255 → e.interval ≤ 65535 → e.hold ≤ 65535 →
    let fs := e.formats
    let inRange := 1 ≤ e.source.toNat ∧ e.source.toNat ≤ 254 ∧ e.channel ≤ 15 ∧ 1 ≤ e.interval ∧ e.interval ≤ 3600 ∧
      1 ≤ e.hold ∧ e.hold ≤ 1440
    let onFurnace := ∃ f, e.target = .furnace f
    let suits := (∀ f, e.target = .furnace f → (s.furnaceCfg f).defined = true) ∧
      (∀ l, e.target = .line l → (s.lineCfg l).furnace ≠ none) ∧
      (e.category = .charge ∨ e.category = .cullet → onFurnace) ∧ (e.category = .gobw → ¬onFurnace)
    let formatsSuit := (e.category = .gobw → fs = ⟨false, false, false, true⟩) ∧
      (e.category ≠ .gobw → fs.value = false ∧ (fs.total32 = true ∨ fs.step = true ∨ fs.total16 = true) ∧
        1 ≤ e.factor ∧ 1 ≤ e.maxRate) ∧ (fs.total32 = true → 2 ≤ e.modulus)
    let ok := inRange ∧ suits ∧ formatsSuit ∧
      (e.sensitive = true → (e.category = .energy ∨ e.category = .credit) ∧ onFurnace) ∧
      3 * e.interval < e.hold * 60 ∧
      ∀ j st, j ≠ k → s.stream j = some st → ¬(st.entry.source = e.source ∧ st.entry.channel = e.channel)
    (¬ok → ∃ t, exec (ldstOf src tag k e) s = .next t ∧ t.answers 0x20#8 ⟨.badarg, []⟩ ∧
      t.streams = s.streams ∧ t.heard = s.heard) ∧
    (ok → s.enabled k = true → ∃ t, exec (ldstOf src tag k e) s = .next t ∧
      t.answers 0x20#8 ⟨.state, []⟩ ∧ t.streams = s.streams ∧ t.heard = s.heard) ∧
    (ok → s.enabled k = false → ∃ t, exec (ldstOf src tag k e) s = .next t ∧
      t.answers 0x20#8 ⟨.done, []⟩ ∧ t.stream k = some { entry := e, live := {} } ∧
      (∀ j, j ≠ k → t.stream j = s.stream j) ∧
      t.heard = (s.heard.filter fun h => !decide (h.source = e.source ∧ h.channel = e.channel)) ∧
      t.furnaceLive = s.furnaceLive ∧ t.lineLive = s.lineLive ∧ t.furnaces = s.furnaces ∧ t.lines = s.lines ∧
      t.groups = s.groups ∧ t.run = s.run)

/-- R25, R26, R48: sten on takes a loaded OFF stream whose target is in use to WAIT, its counts kept and its pair out
of the heard list; sten off takes an enabled one to OFF with the OFF values but its counts. On of an enabled stream, and
off of one in OFF, are DONE and leave it as it is. On an empty entry on is STATE and off DONE; on with a target that is
no longer in use is STATE. A stream number past 47 and an argument past 1 are BADARG. Storage holds no error. -/
def Obligations.StreamEnables : Prop :=
  ∀ (src tag : Byte) (k : Fin 48) (s : State), s.free → s.sound →
    let cmd (b : Byte) : Command := ⟨src, 0x22#8, tag, [BitVec.ofNat 8 k.val, b]⟩
    (∀ st, s.stream k = some st → st.live.state = .off → s.targetSuits st.entry.category st.entry.target = true →
      exec (.sten src tag (BitVec.ofNat 8 k.val) 1#8) s = .next (s.taken (cmd 1#8) ⟨.done, []⟩
        { s.reserveSlot with
          streams := vset s.streams k (some { st with live := { state := .wait, counts := st.live.counts } })
          heard := s.heard.filter fun h => !decide (h.source = st.entry.source ∧ h.channel = st.entry.channel) })) ∧
    (∀ st, s.stream k = some st → st.live.state ≠ .off →
      exec (.sten src tag (BitVec.ofNat 8 k.val) 0#8) s = .next (s.taken (cmd 0#8) ⟨.done, []⟩
        { s.reserveSlot with streams := vset s.streams k (some { st with live := { counts := st.live.counts } }) })) ∧
    (∀ st, s.stream k = some st → st.live.state ≠ .off → s.targetSuits st.entry.category st.entry.target = true →
      exec (.sten src tag (BitVec.ofNat 8 k.val) 1#8) s = .next (s.taken (cmd 1#8) ⟨.done, []⟩ s.reserveSlot)) ∧
    (∀ st, s.stream k = some st → st.live.state = .off →
      exec (.sten src tag (BitVec.ofNat 8 k.val) 0#8) s = .next (s.taken (cmd 0#8) ⟨.done, []⟩ s.reserveSlot)) ∧
    (∀ n b : Byte, 48 ≤ n.toNat ∨ 2 ≤ b.toNat → exec (.sten src tag n b) s =
      .next (s.taken ⟨src, 0x22#8, tag, [n, b]⟩ ⟨.badarg, []⟩ s.reserveSlot)) ∧
    (∀ st, s.stream k = some st → s.targetSuits st.entry.category st.entry.target = false →
      exec (.sten src tag (BitVec.ofNat 8 k.val) 1#8) s =
        .next (s.taken (cmd 1#8) ⟨.state, []⟩ s.reserveSlot)) ∧
    (s.stream k = none →
      exec (.sten src tag (BitVec.ofNat 8 k.val) 1#8) s = .next (s.taken (cmd 1#8) ⟨.state, []⟩ s.reserveSlot) ∧
      exec (.sten src tag (BitVec.ofNat 8 k.val) 0#8) s = .next (s.taken (cmd 0#8) ⟨.done, []⟩ s.reserveSlot))

/-- R47: a smpl or helo from a pair that no enabled stream holds, taken outside PASS, goes to the heard list: an entry
of the pair takes the new kind and time; a new pair joins as the newest, the oldest of 8 giving way, and raises HEAR. No
stream and no live set changes. R14, R29, R44: in PASS a smpl or helo of any pair changes no stream, no heard list, no
job record and no live set, and raises neither HEAR nor a STRM cause. -/
def Obligations.UnboundPairIsHeard : Prop :=
  (∀ (dest src b : Byte) (rest : List Byte) (begun : Begun) (s : State) (c : Instr) (kind : Byte),
    s.field.link = .up → rest.length ≤ 247 → s.run ≠ .pass →
    (c = .smplReceived dest src ⟨b :: rest, begun⟩ ∧ kind = 1#8) ∨
      (c = .heloReceived dest src ⟨b :: rest, begun⟩ ∧ kind = 2#8) →
    (∀ k, s.findStream src (b.toNat % 16) = some k → s.enabled k = false) →
    let x : Heard := { source := src, channel := b.toNat % 16, kind := kind, time := s.clock.elapsed }
    let known := s.heard.any fun h => decide (h.source = src ∧ h.channel = b.toNat % 16)
    ∃ t, exec c s = .next t ∧
      t.heard = (if known then s.heard.map fun h => if h.source = src ∧ h.channel = b.toNat % 16 then x else h
        else if s.heard.length < 8 then s.heard ++ [x] else s.heard.drop 1 ++ [x]) ∧
      t.attention.isPending .hear = (s.attention.isPending .hear || !known) ∧ t.streams = s.streams ∧
      t.furnaceLive = s.furnaceLive ∧ t.lineLive = s.lineLive) ∧
  ∀ (dest src : Byte) (payload : List Byte) (begun : Begun) (s : State) (c : Instr), s.run = .pass →
    c = .smplReceived dest src ⟨payload, begun⟩ ∨ c = .heloReceived dest src ⟨payload, begun⟩ →
    ∃ t, exec c s = .next t ∧ t.streams = s.streams ∧ t.heard = s.heard ∧ t.jobs = s.jobs ∧
      t.furnaceLive = s.furnaceLive ∧ t.lineLive = s.lineLive ∧
      t.attention.isPending .hear = s.attention.isPending .hear ∧
      t.attention.isPending .strm = s.attention.isPending .strm ∧ t.attention.strm = s.attention.strm

/-- R30 to R32, R38: what a helo does to its stream. In LIVE, STALE and LOST it is a restart: a format fault is counted,
STRM FORMAT is raised, base, sequence, format, inferred and deferral marks and the pending estimate go, the stale,
interval and hold timers stop, the stream goes to WAIT, and in RUN it joins its target's held streams; then, and in
WAIT, the helo is ignored in adopt-only, else the stream goes to SELECT with the first of TOTAL32, STEP, TOTAL16 (VALUE
for GOBW) that both name, or counts a format fault and raises STRM FORMAT where there is none. In SELECT the choice is
made anew, and with none the stream goes back to WAIT (without a format, log 23). A chosen format is queued as a slct
where the field port's local queue has a free slot, and the select timer runs for 2000 ms. The bits 7 to 4 of its bytes
and bytes past the second are not read (log 29). Nothing is booked. Storage holds no error. -/
def Obligations.HeloSelectsAFormat : Prop :=
  ∀ (dest src b fs : Byte) (rest : List Byte) (begun : Begun) (s : State) (k : Fin 48) (st : Stream),
    s.field.link = .up → rest.length ≤ 246 → s.run ≠ .pass → s.sound →
    s.findStream src (b.toNat % 16) = some k → s.stream k = some st → st.live.state ≠ .off →
    let v := st.live
    let bound := v.state = .live ∨ v.state = .stale ∨ v.state = .lost
    let both : Format → Bool
      | .total32 => fs.getLsbD 0 && st.entry.formats.total32
      | .step => fs.getLsbD 1 && st.entry.formats.step
      | .total16 => fs.getLsbD 2 && st.entry.formats.total16
      | .value => fs.getLsbD 3 && st.entry.formats.value
    let chosen := (if st.entry.category = .gobw then [Format.value] else [.total32, .step, .total16]).find? both
    let fault (x : StreamLive) : StreamLive :=
      { x with counts := { x.counts with formatFaults := min 4294967295 (x.counts.formatFaults + 1) } }
    let back : StreamLive :=
      if bound then fault { v with
        state := .wait, base := none, lastSeq := none, format := none, inferred := false, deferral := false
        pending := 0, staleAt := none, intervalAt := none, holdAt := none }
      else v
    let ignored := v.adoptOnly = true ∧ v.state ≠ .select
    ∃ u, exec (.heloReceived dest src ⟨b :: fs :: rest, begun⟩) s = .next (settle u) ∧
      (ignored → u.stream k = some { st with live := back } ∧ u.field.localQueue = s.field.localQueue) ∧
      (¬ignored → ∀ f, chosen = some f →
        u.stream k = some { st with live := { back with
          state := .select, format := some f, selectAt := some (s.clock.elapsed + 2000) } } ∧
        u.field.localQueue = (if s.field.slots < 4 then
          s.field.localQueue ++ [{ dest := st.entry.source, src := s.address, kind := 3#8
                                   payload := [BitVec.ofNat 8 st.entry.channel, BitVec.ofNat 8 f.code] }]
          else s.field.localQueue)) ∧
      (¬ignored → chosen = none → u.field.localQueue = s.field.localQueue ∧
        u.stream k = some { st with
          live := fault (if v.state = .select then { v with state := .wait, format := none, selectAt := none }
            else back) }) ∧
      (bound ∨ ¬ignored ∧ chosen = none →
        u.attention.isPending .strm = true ∧ (vget u.attention.strm k).format = true) ∧
      (∀ a, u.liveBase a = if bound ∧ s.run = .run ∧ a = st.entry.target then
        { s.liveBase a with held := vset (s.liveBase a).held k true } else s.liveBase a) ∧
      (∀ j, j ≠ k → u.stream j = s.stream j) ∧ u.heard = s.heard

/-- R32, R34, R35, R43: a sample that gives its stream a base makes it LIVE, its stale and hold timers from now: in WAIT
and in STALE or LOST without a base one in an accepted format, long or short, in SELECT one in the selected format. A
counting stream books nothing; a GOBW value in its line's band replaces the gob weight, and outside it is held (R72). A
sample that does not do so is a format fault, with STRM FORMAT but in SELECT, and nothing else changes. R37, R39, R45: a
sample in another format, or in none, of a stream in LIVE, STALE or LOST with a base is a format fault: base, sequence
and pending estimate go, and in RUN the stream joins its target's held streams. A STALE or LOST stream stays so. A LIVE
one enters STALE: STRM STALE is raised, the stale timer stops, the interval timer starts, and an ENERGY or CREDIT stream
in RUN books the held rate times the whole seconds since its last good sample as an estimate. Storage holds no error. -/
def Obligations.SampleBindsAWaitingStream : Prop :=
  ∀ (dest src b : Byte) (value : List Byte) (begun : Begun) (s : State) (k : Fin 48) (st : Stream),
    s.field.link = .up → value.length ≤ 247 → s.run ≠ .pass → s.sound →
    s.findStream src (b.toNat % 16) = some k → s.stream k = some st →
    let x := st.entry
    let faulted : StreamCounts := { st.live.counts with
      formatFaults := min 4294967295 (st.live.counts.formatFaults + 1) }
    let format : Option Format := match b.toNat / 16, value.length with
      | 0, 4 => some .total32
      | 1, 4 => some .total32
      | 2, 3 => some .step
      | 0, 2 => some .total16
      | 3, 2 => some .total16
      | 4, 2 => some .value
      | _, _ => none
    let waits := st.live.state = .wait
    let offered := st.live.state = .select
    let baseless := (st.live.state = .stale ∨ st.live.state = .lost) ∧ st.live.base = none
    let suits (f : Format) : Prop := format = some f ∧
      ((waits ∨ baseless) ∧ (match f with
          | .total32 => x.formats.total32
          | .step => x.formats.step
          | .total16 => x.formats.total16
          | .value => x.formats.value) = true ∨
        offered ∧ st.live.format = some f)
    (∀ f, suits f → (x.category = .gobw → f = .value) →
      let n := match f with
        | .total32 => beNat value % x.modulus
        | .step => beNat (value.take 2)
        | _ => beNat value
      let heldBack (l : Fin 8) : Prop := x.category = .gobw ∧ x.target = .line l ∧
        ¬((s.lineCfg l).gobLow ≤ n ∧ n ≤ (s.lineCfg l).gobHigh)
      let holds := if ∃ l, heldBack l then min 4294967295 (st.live.counts.weightHolds + 1)
        else st.live.counts.weightHolds
      ∃ t, exec (.smplReceived dest src ⟨b :: value, begun⟩) s = .next t ∧
        t.stream k = some { st with live := { st.live with
          state := .live, format := some f, base := some n
          lastSeq := if f = .step then some (beNat (value.drop 2)) else none
          inferred := decide (¬offered ∧ b.toNat / 16 = 0)
          attempts := if baseless then st.live.attempts else 0
          pending := if baseless then 0 else st.live.pending
          lastGood := some s.clock.elapsed, deferral := false, selectAt := none, intervalAt := none
          staleAt := some (s.clock.elapsed + 3 * x.interval * 1000)
          holdAt := some (s.clock.elapsed + x.hold * 60000)
          counts := { st.live.counts with weightHolds := holds } } } ∧
        (∀ l, t.job l = if x.category = .gobw ∧ x.target = .line l ∧ ¬heldBack l then
          { s.job l with weight := n } else s.job l) ∧
        (∀ l, t.lLive l = if heldBack l ∧ s.run = .run then
          { s.lLive l with
            weightHolds := min 4294967295 ((s.lLive l).weightHolds + 1)
            base := { (s.lLive l).base with held := vset (s.lLive l).base.held k true } }
          else s.lLive l) ∧
        (∀ j, j ≠ k → t.stream j = s.stream j) ∧ t.furnaceLive = s.furnaceLive ∧ t.heard = s.heard) ∧
    ((waits ∨ baseless ∨ offered) → (∀ f, ¬suits f) →
      ∃ t, exec (.smplReceived dest src ⟨b :: value, begun⟩) s = .next t ∧
        t.stream k = some { st with live := { st.live with counts := faulted } } ∧
        (¬offered → t.attention.isPending .strm = true ∧ (vget t.attention.strm k).format = true) ∧
        (offered → t.attention.strm = s.attention.strm) ∧
        (∀ j, j ≠ k → t.stream j = s.stream j) ∧ t.furnaceLive = s.furnaceLive ∧ t.lineLive = s.lineLive ∧
        t.heard = s.heard) ∧
    ∀ base good : Nat,
      st.live.state = .live ∨ st.live.state = .stale ∨ st.live.state = .lost →
      st.live.base = some base → st.live.lastGood = some good → format = none ∨ st.live.format ≠ format →
      let v : StreamLive := { st.live with base := none, lastSeq := none, pending := 0, counts := faulted }
      let stale := st.live.state = .live
      let books := stale ∧ s.run = .run ∧ (x.category = .energy ∨ x.category = .credit)
      let e := v.heldRate * ((s.clock.elapsed - good) / 1000)
      let whole := e * x.factor / 65536 + v.remainder
      let old := s.liveBase x.target
      ∃ t, exec (.smplReceived dest src ⟨b :: value, begun⟩) s = .next t ∧
        t.stream k = some { st with live :=
          if stale then { v with
            state := .stale, staleAt := none, deferral := false
            intervalAt := some (s.clock.elapsed + x.interval * 1000)
            remainder := if books then whole % 65536 else v.remainder
            pending := if books then min e (cap48 * 65536 + 65535) else 0 }
          else v } ∧
        t.attention.isPending .strm = true ∧ (vget t.attention.strm k).format = true ∧
        (stale → (vget t.attention.strm k).stale = true) ∧
        (∀ kd, (t.liveBase x.target).energy.get kd = if books ∧ x.category = .energy ∧ kd = x.kind then
          min cap48 (old.energy.get kd + whole / 65536) else old.energy.get kd) ∧
        (t.liveBase x.target).credit = (if books ∧ x.category = .credit then
          min cap48 (old.credit + whole / 65536) else old.credit) ∧
        (t.liveBase x.target).estimated = (if books then
          min cap48 (old.estimated + whole / 65536) else old.estimated) ∧
        (t.liveBase x.target).held = (if s.run = .run then vset old.held k true else old.held) ∧
        (∀ a, a ≠ x.target → t.liveBase a = s.liveBase a) ∧ (∀ j, j ≠ k → t.stream j = s.stream j) ∧ t.heard = s.heard

/-- R50 to R53, R55, R56, R58, R60, R61: a counting sample, in any format, of a LIVE stream, whose delta and gap amount
lie within the limit, takes its value as the base and measures the held rate, but after missed STEP frames. In RUN it
books the delta's kilojoules or grams by the stream's category, the fraction carried; for ENERGY and CREDIT it first
books the gap of the missed frames, each taken as the last increment, through the same remainder, as an estimate. In
IDLE and HALT nothing is booked. R57: one of a stream in LIVE, STALE or LOST that passes the limit is a jump: nothing is
booked, the base takes the value, the stream is LIVE, the pending estimate becomes 0, held rate and remainder stay, the
jump is counted and STRM JUMP is raised. A gap is counted in both cases. R54: a STEP sample whose sequence is the last
one is counted as a repeat and changes nothing else. No other account and no other stream changes. Storage holds no
error. -/
def Obligations.SampleBooksItsDeltaOrJumps : Prop :=
  (∀ (dest src b : Byte) (value : List Byte) (begun : Begun) (s : State) (k : Fin 48) (st : Stream) (m : Format)
    (base good n d g : Nat) (q : Option Nat),
    s.field.link = .up → s.run ≠ .pass → s.sound → s.findStream src (b.toNat % 16) = some k → s.stream k = some st →
    st.live.state = .live ∨ st.live.state = .stale ∨ st.live.state = .lost →
    st.live.format = some m → st.live.base = some base → st.live.lastGood = some good → st.entry.category ≠ .gobw →
    st.entry.Measures st.live base (b.toNat / 16) value m n d g q →
    let x := st.entry
    let v := st.live
    let ms := s.clock.elapsed - good
    let limit := x.maxRate * max 1 ((ms + 999) / 1000) * (if s.blanked x then 4 else 1)
    let books := s.run = .run
    let energetic := x.category = .energy ∨ x.category = .credit
    let filled := energetic ∧ g ≠ 0
    let gap := g * base * x.factor + v.remainder
    let gapKj := if filled then gap / 65536 else 0
    let whole := d * x.factor + (if filled then gap % 65536 else v.remainder)
    let old := s.liveBase x.target
    let after : StreamLive := { v with
      state := .live, base := some n, lastSeq := q, lastGood := some s.clock.elapsed, deferral := false
      selectAt := none, intervalAt := none, staleAt := some (s.clock.elapsed + 3 * x.interval * 1000)
      holdAt := some (s.clock.elapsed + x.hold * 60000)
      counts := { v.counts with gaps := if g = 0 then v.counts.gaps else min 4294967295 (v.counts.gaps + 1) } }
    ∃ t, exec (.smplReceived dest src ⟨b :: value, begun⟩) s = .next t ∧
      (v.state = .live → d + g * base ≤ limit →
        t.stream k = some { st with live := { after with
          remainder := if books then whole % 65536 else v.remainder
          heldRate := if g = 0 then min (d * 65536 * 1000 / max 1 ms) (x.maxRate * 65536) else v.heldRate } } ∧
        (∀ kd, (t.liveBase x.target).energy.get kd = if books ∧ x.category = .energy ∧ kd = x.kind then
          min cap48 (old.energy.get kd + gapKj + whole / 65536) else old.energy.get kd) ∧
        (t.liveBase x.target).credit = (if books ∧ x.category = .credit then
          min cap48 (old.credit + gapKj + whole / 65536) else old.credit) ∧
        (t.liveBase x.target).estimated = (if books ∧ filled then
          min cap48 (old.estimated + gapKj) else old.estimated) ∧
        (t.liveBase x.target).correction = old.correction ∧ (t.liveBase x.target).held = old.held ∧
        (∀ f, (t.fLive f).charge = if books ∧ x.category = .charge ∧ x.target = .furnace f then
          min cap48 ((s.fLive f).charge + whole / 65536) else (s.fLive f).charge) ∧
        (∀ f, (t.fLive f).cullet = if books ∧ x.category = .cullet ∧ x.target = .furnace f then
          min cap48 ((s.fLive f).cullet + whole / 65536) else (s.fLive f).cullet)) ∧
      (limit < d + g * base →
        t.stream k = some { st with live := { after with
          pending := 0, counts := { after.counts with jumps := min 4294967295 (v.counts.jumps + 1) } } } ∧
        t.attention.isPending .strm = true ∧ (vget t.attention.strm k).jump = true ∧
        t.furnaceLive = s.furnaceLive ∧ t.lineLive = s.lineLive) ∧
      (∀ a, a ≠ x.target → t.liveBase a = s.liveBase a) ∧ (∀ j, j ≠ k → t.stream j = s.stream j) ∧
      t.records = s.records ∧ t.heard = s.heard) ∧
  ∀ (dest src b hi lo sq : Byte) (begun : Begun) (s : State) (k : Fin 48) (st : Stream) (base : Nat),
    s.field.link = .up → b.toNat / 16 = 2 → s.run ≠ .pass → s.sound →
    s.findStream src (b.toNat % 16) = some k → s.stream k = some st →
    st.live.state = .live ∨ st.live.state = .stale ∨ st.live.state = .lost →
    st.live.format = some .step → st.live.base = some base → st.live.lastSeq = some sq.toNat →
    st.entry.category ≠ .gobw →
    ∃ t, exec (.smplReceived dest src ⟨[b, hi, lo, sq], begun⟩) s = .next t ∧
      t.stream k = some { st with live := { st.live with
        counts := { st.live.counts with repeats := min 4294967295 (st.live.counts.repeats + 1) } } } ∧
      (∀ j, j ≠ k → t.stream j = s.stream j) ∧ t.furnaceLive = s.furnaceLive ∧ t.lineLive = s.lineLive ∧
      t.heard = s.heard

/-- R33: at its expiry the select timer returns the stream to WAIT with one more attempt, adopt-only from the third
(the format goes with it, log 23). An expiry row whose timer is not due does nothing (log 7). Storage holds no error.
R42, R45: a STALE stream whose hold timer is due goes to LOST: STRM LOST is raised, its interval and hold timers stop,
and in RUN it joins its target's held streams; nothing is booked. Storage holds no error. R14, R44: in PASS no timer row
of a stream, the stale and interval timers' among them, does anything. -/
def Obligations.SelectAndHoldTimersExpire : Prop :=
  (∀ (k : Fin 48) (s : State) (st : Stream) (at_ : Nat), s.run ≠ .pass → s.sound → s.stream k = some st →
    st.live.state = .select → st.live.selectAt = some at_ →
    (at_ ≤ s.clock.elapsed → exec (.selectTimerExpiry k) s = .next (settle { s with
      streams := vset s.streams k (some { st with live := { st.live with
        state := .wait, format := none, selectAt := none, attempts := min 3 (st.live.attempts + 1)
        adoptOnly := st.live.adoptOnly || decide (2 ≤ st.live.attempts) } }) })) ∧
    (s.clock.elapsed < at_ → exec (.selectTimerExpiry k) s = .next (settle s))) ∧
  (∀ (k : Fin 48) (s : State) (st : Stream) (at_ : Nat), s.run ≠ .pass → s.sound → s.stream k = some st →
    st.live.state = .stale → st.live.holdAt = some at_ → at_ ≤ s.clock.elapsed →
    ∃ t, exec (.holdTimerExpiry k) s = .next t ∧
      t.stream k = some { st with live := { st.live with state := .lost, intervalAt := none, holdAt := none } } ∧
      t.attention.isPending .strm = true ∧ (vget t.attention.strm k).lost = true ∧
      (∀ a, t.liveBase a = if a = st.entry.target ∧ s.run = .run then
        { s.liveBase a with held := vset (s.liveBase a).held k true } else s.liveBase a) ∧
      ∀ j, j ≠ k → t.stream j = s.stream j) ∧
  ∀ (k : Fin 48) (s : State), s.run = .pass →
    exec (.selectTimerExpiry k) s = .next (settle s) ∧ exec (.staleTimerExpiry k) s = .next (settle s) ∧
    exec (.intervalTimerExpiry k) s = .next (settle s) ∧ exec (.holdTimerExpiry k) s = .next (settle s)

/-- R39, R62, R64, R65, R44, R45: a LIVE stream whose stale timer is due, and which waits on no blanking, enters STALE:
STRM STALE is raised and the interval timer starts; in RUN it joins its target's held streams, and for ENERGY and CREDIT
the held rate times the whole seconds of silence is booked as an estimate and joins the pending estimate. R41, R63: the
interval timer of a STALE stream starts again, and in RUN an ENERGY or CREDIT stream books one expected interval of the
held rate as an estimate. The other categories, and IDLE and HALT, book none. R40: in its furnace's blanking a due stale
timer of a reversal-sensitive stream only sets the deferral mark; at its due hold timer a deferred stream enters STALE,
with the estimate, and then LOST. R43, R66 to R70, R44: a sample in the format in use of a STALE or LOST stream with a
base, within the limit, makes it LIVE, its pending estimate 0: in RUN an ENERGY stream books the correction of the
pending estimate to what the meter counted (missed STEP frames as the last increment), a CREDIT stream its opposite, a
CHARGE or CULLET stream its delta; outside RUN nothing is booked. The held rate is measured then, but after missed STEP
frames (log 39). Storage holds no error. -/
def Obligations.SilenceIsEstimated : Prop :=
  (∀ (k : Fin 48) (s : State) (st : Stream) (at_ good : Nat), s.run ≠ .pass → s.sound → s.stream k = some st →
    st.live.state = .live → st.live.staleAt = some at_ → at_ ≤ s.clock.elapsed → st.live.lastGood = some good →
    s.blanked st.entry = false →
    let x := st.entry
    let books := s.run = .run ∧ (x.category = .energy ∨ x.category = .credit)
    let e := st.live.heldRate * ((s.clock.elapsed - good) / 1000)
    let whole := e * x.factor / 65536 + st.live.remainder
    let old := s.liveBase x.target
    ∃ t, exec (.staleTimerExpiry k) s = .next t ∧
      t.stream k = some { st with live := { st.live with
        state := .stale, staleAt := none, deferral := false
        intervalAt := some (s.clock.elapsed + x.interval * 1000)
        remainder := if books then whole % 65536 else st.live.remainder
        pending := if books then min (st.live.pending + e) (cap48 * 65536 + 65535) else st.live.pending } } ∧
      (∀ kd, (t.liveBase x.target).energy.get kd = if books ∧ x.category = .energy ∧ kd = x.kind then
        min cap48 (old.energy.get kd + whole / 65536) else old.energy.get kd) ∧
      (t.liveBase x.target).credit = (if books ∧ x.category = .credit then
        min cap48 (old.credit + whole / 65536) else old.credit) ∧
      (t.liveBase x.target).estimated = (if books then
        min cap48 (old.estimated + whole / 65536) else old.estimated) ∧
      (t.liveBase x.target).correction = old.correction ∧
      (t.liveBase x.target).held = (if s.run = .run then vset old.held k true else old.held) ∧
      t.attention.isPending .strm = true ∧ (vget t.attention.strm k).stale = true ∧
      (∀ f, t.fLive f = { s.fLive f with base := (t.fLive f).base }) ∧
      (∀ l, t.lLive l = { s.lLive l with base := (t.lLive l).base }) ∧
      (∀ a, a ≠ x.target → t.liveBase a = s.liveBase a) ∧ ∀ j, j ≠ k → t.stream j = s.stream j) ∧
  (∀ (k : Fin 48) (s : State) (st : Stream) (at_ : Nat), s.run ≠ .pass → s.sound → s.stream k = some st →
    st.live.state = .stale → st.live.intervalAt = some at_ → at_ ≤ s.clock.elapsed →
    let x := st.entry
    let books := s.run = .run ∧ (x.category = .energy ∨ x.category = .credit)
    let e := st.live.heldRate * x.interval
    let whole := e * x.factor / 65536 + st.live.remainder
    let old := s.liveBase x.target
    ∃ t, exec (.intervalTimerExpiry k) s = .next t ∧
      t.stream k = some { st with live := { st.live with
        intervalAt := some (at_ + x.interval * 1000)
        remainder := if books then whole % 65536 else st.live.remainder
        pending := if books then min (st.live.pending + e) (cap48 * 65536 + 65535) else st.live.pending } } ∧
      (∀ kd, (t.liveBase x.target).energy.get kd = if books ∧ x.category = .energy ∧ kd = x.kind then
        min cap48 (old.energy.get kd + whole / 65536) else old.energy.get kd) ∧
      (t.liveBase x.target).credit = (if books ∧ x.category = .credit then
        min cap48 (old.credit + whole / 65536) else old.credit) ∧
      (t.liveBase x.target).estimated = (if books then
        min cap48 (old.estimated + whole / 65536) else old.estimated) ∧
      (t.liveBase x.target).correction = old.correction ∧ (t.liveBase x.target).held = old.held ∧
      (∀ f, t.fLive f = { s.fLive f with base := (t.fLive f).base }) ∧
      (∀ l, t.lLive l = { s.lLive l with base := (t.lLive l).base }) ∧
      (∀ a, a ≠ x.target → t.liveBase a = s.liveBase a) ∧ ∀ j, j ≠ k → t.stream j = s.stream j) ∧
  (∀ (k : Fin 48) (s : State) (st : Stream) (at_ : Nat) (f : Fin 4), s.run ≠ .pass → s.sound → s.stream k = some st →
    st.live.state = .live → st.entry.sensitive = true → st.entry.category = .energy ∨ st.entry.category = .credit →
    st.entry.target = .furnace f → (s.furnaceInput f).blankingEnd.isSome →
    (st.live.staleAt = some at_ → at_ ≤ s.clock.elapsed → exec (.staleTimerExpiry k) s = .next (settle { s with
      streams := vset s.streams k (some { st with live := { st.live with staleAt := none, deferral := true } }) })) ∧
    ∀ good, st.live.deferral = true → st.live.holdAt = some at_ → at_ ≤ s.clock.elapsed → st.live.lastGood = some good →
      let e := st.live.heldRate * ((s.clock.elapsed - good) / 1000)
      let whole := e * st.entry.factor / 65536 + st.live.remainder
      let books := s.run = .run
      ∃ t, exec (.holdTimerExpiry k) s = .next t ∧
        t.stream k = some { st with live := { st.live with
          state := .lost, staleAt := none, deferral := false, intervalAt := none, holdAt := none
          remainder := if books then whole % 65536 else st.live.remainder
          pending := if books then min (st.live.pending + e) (cap48 * 65536 + 65535) else st.live.pending } } ∧
        (vget t.attention.strm k).stale = true ∧ (vget t.attention.strm k).lost = true ∧
        (t.fLive f).base.estimated = (if books then
          min cap48 ((s.fLive f).base.estimated + whole / 65536) else (s.fLive f).base.estimated) ∧
        (books → vget (t.fLive f).base.held k = true) ∧ (¬books → t.furnaceLive = s.furnaceLive) ∧
        t.lineLive = s.lineLive ∧ ∀ j, j ≠ k → t.stream j = s.stream j) ∧
  ∀ (dest src b : Byte) (value : List Byte) (begun : Begun) (s : State) (k : Fin 48) (st : Stream) (m : Format)
    (base good n d g : Nat) (q : Option Nat),
    s.field.link = .up → s.run ≠ .pass → s.sound → s.findStream src (b.toNat % 16) = some k → s.stream k = some st →
    st.live.state = .stale ∨ st.live.state = .lost → st.live.format = some m → st.live.base = some base →
    st.live.lastGood = some good → st.entry.category ≠ .gobw →
    st.entry.Measures st.live base (b.toNat / 16) value m n d g q →
    let x := st.entry
    let v := st.live
    let ms := s.clock.elapsed - good
    d + g * base ≤ x.maxRate * max 1 ((ms + 999) / 1000) * (if s.blanked x then 4 else 1) →
    let settles := s.run = .run ∧ (x.category = .energy ∨ x.category = .credit)
    let mass := s.run = .run ∧ (x.category = .charge ∨ x.category = .cullet) ∧ ∃ f, x.target = .furnace f
    let whole := d * x.factor + v.remainder
    let c : Int := (((d + g * base) * 65536 : Nat) - (v.pending : Int)) * (x.factor : Int)
    let kj : Int := (if c < 0 then -1 else 1) * ((c.natAbs + 2147483648) / 4294967296 : Nat)
    let old := s.liveBase x.target
    let moved := if x.category = .credit then old.correction - kj else old.correction + kj
    ∃ t, exec (.smplReceived dest src ⟨b :: value, begun⟩) s = .next t ∧
      t.stream k = some { st with live := { v with
        state := .live, base := some n, lastSeq := q, lastGood := some s.clock.elapsed, deferral := false
        selectAt := none, intervalAt := none, staleAt := some (s.clock.elapsed + 3 * x.interval * 1000)
        holdAt := some (s.clock.elapsed + x.hold * 60000), pending := 0
        remainder := if s.run = .run ∧ (x.category = .charge ∨ x.category = .cullet) then whole % 65536 else v.remainder
        heldRate := if g = 0 then min (d * 65536 * 1000 / max 1 ms) (x.maxRate * 65536) else v.heldRate
        counts := { v.counts with
          gaps := if g = 0 then v.counts.gaps else min 4294967295 (v.counts.gaps + 1) } } } ∧
      (t.liveBase x.target).correction =
        (if settles then max (-140737488355328) (min 140737488355327 moved) else old.correction) ∧
      (t.liveBase x.target).energy = old.energy ∧ (t.liveBase x.target).credit = old.credit ∧
      (t.liveBase x.target).estimated = old.estimated ∧ (t.liveBase x.target).held = old.held ∧
      (∀ f, (t.fLive f).charge = if mass ∧ x.category = .charge ∧ x.target = .furnace f then
        min cap48 ((s.fLive f).charge + whole / 65536) else (s.fLive f).charge) ∧
      (∀ f, (t.fLive f).cullet = if mass ∧ x.category = .cullet ∧ x.target = .furnace f then
        min cap48 ((s.fLive f).cullet + whole / 65536) else (s.fLive f).cullet) ∧
      (∀ a, a ≠ x.target → t.liveBase a = s.liveBase a) ∧ ∀ j, j ≠ k → t.stream j = s.stream j

/-! ### Tally inputs -/

/-- R75: a pin change sets the pin's level; on a tracked input a level that differs from the filtered one starts a
pending change now where none stands, and the filtered level drops a pending change that has not held for its hold
time (1 ms on CUT, REJ and DIV, 100 ms on REV). Nothing else changes. -/
def Obligations.PinChangeStartsOrDropsAChange : Prop :=
  ∀ (l : Fin 8) (f : Fin 4) (b : Bool) (s : State),
    let sensed (hold : Nat) (x : Filter) : Filter :=
      if b = x.level then
        (match x.since with
          | some u => if u + hold ≤ s.clock.elapsed then x else { x with since := none }
          | none => x)
      else (match x.since with
          | some _ => x
          | none => { x with since := some s.clock.elapsed })
    exec (.inputPinChange (.cut l) b) s = .next (settle { s with
      pins := { s.pins with cut := vset s.pins.cut l b }
      lineInputs := vset s.lineInputs l { s.lineInput l with cut := (s.lineInput l).cut.map (sensed 1) } }) ∧
    exec (.inputPinChange (.rej l) b) s = .next (settle { s with
      pins := { s.pins with rej := vset s.pins.rej l b }
      lineInputs := vset s.lineInputs l { s.lineInput l with rej := (s.lineInput l).rej.map (sensed 1) } }) ∧
    exec (.inputPinChange (.div l) b) s = .next (settle { s with
      pins := { s.pins with div := vset s.pins.div l b }
      lineInputs := vset s.lineInputs l { s.lineInput l with div := (s.lineInput l).div.map (sensed 1) } }) ∧
    exec (.inputPinChange (.rev f) b) s = .next (settle { s with
      pins := { s.pins with rev := vset s.pins.rev f b }
      furnaceInputs := vset s.furnaceInputs f
        { s.furnaceInput f with rev := (s.furnaceInput f).rev.map (sensed 100) } })

/-- R77 to R79, R9: a due rising edge of CUT at least the minimum spacing after the last cut is an accepted cut: the
line runs, the last cut time and stop timer are set and its interval measured; in RUN its live set gains one cut and
the job's mass, diverted with DIV high and formed otherwise; no other line or furnace changes (said for a line that no
GOBW stream targets). A due rising edge closer than the minimum spacing to the last cut is a bounce: it is counted, and
the last cut time, the running condition, the stop timer and every live set stay. R73: at a cut accepted in RUN each
GOBW stream of the line in STALE or LOST counts a weight hold, and the line's live set counts one where there is such a
stream; the cut books the weight in use. R71, R72: a value of a GOBW stream in LIVE, STALE or LOST with a base, in the
format in use, makes it LIVE and becomes its base; within the line's band it replaces the line's gob weight, outside the
weight stays, a weight hold is counted, and in RUN one in the line's live set, whose held streams the stream joins.
Storage holds no error. -/
def Obligations.CutIsAcceptedOrCountedAsBounce : Prop :=
  (∀ (l : Fin 8) (s : State) (c : Filter) (u : Nat), s.sound → s.lineTracked l = true → s.gobStreams l = [] →
    (s.lineInput l).cut = some c → c.level = false → c.since = some u → u + 1 ≤ s.clock.elapsed →
    (∀ x, (s.lineInput l).lastCut = some x → x + (s.lineCfg l).spacing ≤ s.clock.elapsed) →
    let interval := if (s.lineInput l).running then
      (s.lineInput l).lastCut.map fun x => min 65535 (s.clock.elapsed - x) else none
    let mass := (s.job l).gobs * (s.job l).weight
    let diverted := (s.lineInput l).div.any fun f => f.level
    let same := (s.lineInput l).prevSet = .current
    ∃ t, exec (.cutEdge l) s = .next t ∧
      (t.lineInput l).running = true ∧ (t.lineInput l).lastCut = some s.clock.elapsed ∧
      (t.lineInput l).lastInterval = interval ∧
      (t.lineInput l).stopAt = some (s.clock.elapsed + (s.lineCfg l).timeout * 1000) ∧
      (s.run ≠ .run → t.lLive l = s.lLive l) ∧
      (s.run = .run →
        (t.lLive l).cuts = min 4294967295 ((s.lLive l).cuts + 1) ∧
        (t.lLive l).divertedCuts = (if diverted then min 4294967295 ((s.lLive l).divertedCuts + 1)
          else (s.lLive l).divertedCuts) ∧
        (t.lLive l).formed = (if diverted then (s.lLive l).formed else (s.lLive l).formed.add mass) ∧
        (t.lLive l).diverted = (if diverted then (s.lLive l).diverted.add mass else (s.lLive l).diverted) ∧
        (t.lLive l).cutIntervals = (match interval, decide same with
          | some i, true => (match (s.lLive l).cutIntervals with
            | none => some (i, i)
            | some (lo, hi) => some (min lo i, max hi i))
          | _, _ => (s.lLive l).cutIntervals) ∧
        (t.lLive l).base.energy = (s.lLive l).base.energy) ∧
      (∀ i, i ≠ l → t.lLive i = s.lLive i ∧ t.lineInput i = s.lineInput i) ∧ t.furnaceLive = s.furnaceLive ∧
      t.streams = s.streams) ∧
  (∀ (l : Fin 8) (s : State) (c : Filter) (u x : Nat), s.sound → s.lineTracked l = true →
    (s.lineInput l).cut = some c → c.level = false → c.since = some u → u + 1 ≤ s.clock.elapsed →
    (s.lineInput l).lastCut = some x → s.clock.elapsed < x + (s.lineCfg l).spacing →
    ∃ t, exec (.cutEdge l) s = .next t ∧
      t.lineInput l = { s.lineInput l with
        cut := (t.lineInput l).cut
        cutBounces := min 4294967295 ((s.lineInput l).cutBounces + 1) } ∧
      t.lineLive = s.lineLive ∧ t.furnaceLive = s.furnaceLive ∧ ∀ i, i ≠ l → t.lineInput i = s.lineInput i) ∧
  (∀ (l : Fin 8) (s : State) (c : Filter) (u : Nat), s.sound → s.run = .run → s.lineTracked l = true →
    (s.lineInput l).cut = some c → c.level = false → c.since = some u → u + 1 ≤ s.clock.elapsed →
    (∀ x, (s.lineInput l).lastCut = some x → x + (s.lineCfg l).spacing ≤ s.clock.elapsed) →
    let silent (k : Fin 48) : Prop := ∃ st, s.stream k = some st ∧ st.entry.category = .gobw ∧
      st.entry.target = .line l ∧ (st.live.state = .stale ∨ st.live.state = .lost)
    ∃ t, exec (.cutEdge l) s = .next t ∧
      (∀ k, ¬silent k → t.stream k = s.stream k) ∧
      (∀ k st, silent k → s.stream k = some st → t.stream k = some { st with live := { st.live with
        counts := { st.live.counts with weightHolds := min 4294967295 (st.live.counts.weightHolds + 1) } } }) ∧
      ((∃ k, silent k) → (t.lLive l).weightHolds = min 4294967295 ((s.lLive l).weightHolds + 1)) ∧
      ((∀ k, ¬silent k) → (t.lLive l).weightHolds = (s.lLive l).weightHolds) ∧
      (t.lLive l).cuts = min 4294967295 ((s.lLive l).cuts + 1) ∧
      (t.lLive l).pulled = (if (s.lineInput l).div.any fun f => f.level then
        min ((s.lLive l).formed.grams + ((s.lLive l).diverted.add ((s.job l).gobs * (s.job l).weight)).grams) cap48
       else min (((s.lLive l).formed.add ((s.job l).gobs * (s.job l).weight)).grams + (s.lLive l).diverted.grams) cap48) ∧
      t.jobs = s.jobs ∧ (∀ i, i ≠ l → t.lLive i = s.lLive i) ∧ t.furnaceLive = s.furnaceLive) ∧
  ∀ (dest src b hi lo : Byte) (begun : Begun) (s : State) (k : Fin 48) (st : Stream) (l : Fin 8) (base : Nat),
    s.field.link = .up → b.toNat / 16 = 4 → s.run ≠ .pass → s.sound →
    s.findStream src (b.toNat % 16) = some k → s.stream k = some st →
    st.live.state = .live ∨ st.live.state = .stale ∨ st.live.state = .lost →
    st.live.format = some .value → st.live.base = some base → st.entry.category = .gobw → st.entry.target = .line l →
    let n := hi.toNat * 256 + lo.toNat
    let fits := (s.lineCfg l).gobLow ≤ n ∧ n ≤ (s.lineCfg l).gobHigh
    ∃ t, exec (.smplReceived dest src ⟨[b, hi, lo], begun⟩) s = .next t ∧
      t.stream k = some { st with live := { st.live with
        state := .live, base := some n, lastSeq := none, lastGood := some s.clock.elapsed, deferral := false
        selectAt := none, intervalAt := none, pending := 0
        staleAt := some (s.clock.elapsed + 3 * st.entry.interval * 1000)
        holdAt := some (s.clock.elapsed + st.entry.hold * 60000)
        counts := { st.live.counts with weightHolds :=
          if fits then st.live.counts.weightHolds else min 4294967295 (st.live.counts.weightHolds + 1) } } } ∧
      t.jobs = (if fits then vset s.jobs l { s.job l with weight := n } else s.jobs) ∧
      t.lLive l = (if ¬fits ∧ s.run = .run then
        { s.lLive l with
          weightHolds := min 4294967295 ((s.lLive l).weightHolds + 1)
          base := { (s.lLive l).base with held := vset (s.lLive l).base.held k true } }
        else s.lLive l) ∧
      (∀ i, i ≠ l → t.lLive i = s.lLive i) ∧ t.furnaceLive = s.furnaceLive ∧ ∀ j, j ≠ k → t.stream j = s.stream j

/-- R82, R83: a due rising edge of REJ at least 5 ms after the last reject is an accepted reject, booked in RUN as one
piece of reject ware and one gob weight of rejected mass; a closer one is a bounce that books nothing. The last cut
time and the running condition stay. Storage holds no error. -/
def Obligations.RejectIsJudged : Prop :=
  ∀ (l : Fin 8) (s : State) (c : Filter) (u : Nat), s.sound → s.lineTracked l = true →
    (s.lineInput l).rej = some c → c.level = false → c.since = some u → u + 1 ≤ s.clock.elapsed →
    let accepted := ∀ x, (s.lineInput l).lastReject = some x → x + 5 ≤ s.clock.elapsed
    (accepted → ∃ t, exec (.rejEdge l) s = .next t ∧ (t.lineInput l).lastReject = some s.clock.elapsed ∧
      (t.lineInput l).rejectBounces = (s.lineInput l).rejectBounces ∧
      (t.lineInput l).lastCut = (s.lineInput l).lastCut ∧ (t.lineInput l).running = (s.lineInput l).running ∧
      t.lLive l = (if s.run = .run then
        { s.lLive l with
          rejectWare := min 4294967295 ((s.lLive l).rejectWare + 1)
          rejected := (s.lLive l).rejected.add (s.job l).weight
          base := (t.lLive l).base }
        else s.lLive l) ∧ (t.lLive l).base.energy = (s.lLive l).base.energy ∧
      ∀ i, i ≠ l → t.lLive i = s.lLive i) ∧
    (¬accepted → ∃ t, exec (.rejEdge l) s = .next t ∧ (t.lineInput l).lastReject = (s.lineInput l).lastReject ∧
      (t.lineInput l).rejectBounces = min 4294967295 ((s.lineInput l).rejectBounces + 1) ∧
      t.lineLive = s.lineLive)

/-- R75, R81, R82: a due level change of DIV flips its filtered level, and a due falling edge of CUT or REJ takes its
filtered level to LOW; a pin that has left the new level already starts the next change. Nothing else happens. R14,
R76: in PASS, where no input is tracked, no row of an edge, a level change, a reversal, a stop timer or an end of
blanking does anything. -/
def Obligations.QuietLevelChanges : Prop :=
  (∀ (l : Fin 8) (s : State) (c : Filter) (u : Nat), s.lineTracked l = true → c.since = some u →
    u + 1 ≤ s.clock.elapsed →
    let flipped (pin : Bool) : Filter :=
      { level := !c.level, since := if pin = !c.level then none else some s.clock.elapsed }
    ((s.lineInput l).div = some c → exec (.divLevelChange l) s = .next (settle { s with
      lineInputs := vset s.lineInputs l { s.lineInput l with div := some (flipped (vget s.pins.div l)) } })) ∧
    ((s.lineInput l).cut = some c → c.level = true → exec (.fallingEdge (.cut l)) s = .next (settle { s with
      lineInputs := vset s.lineInputs l { s.lineInput l with cut := some (flipped (vget s.pins.cut l)) } })) ∧
    ((s.lineInput l).rej = some c → c.level = true → exec (.fallingEdge (.rej l)) s = .next (settle { s with
      lineInputs := vset s.lineInputs l { s.lineInput l with rej := some (flipped (vget s.pins.rej l)) } }))) ∧
  ∀ (l : Fin 8) (f : Fin 4) (s : State), s.run = .pass →
    exec (.cutEdge l) s = .next (settle s) ∧ exec (.rejEdge l) s = .next (settle s) ∧
    exec (.divLevelChange l) s = .next (settle s) ∧ exec (.fallingEdge (.cut l)) s = .next (settle s) ∧
    exec (.fallingEdge (.rej l)) s = .next (settle s) ∧ exec (.stopTimerExpiry l) s = .next (settle s) ∧
    exec (.reversal f) s = .next (settle s) ∧ exec (.endOfBlanking f) s = .next (settle s)

/-- R84, R86: a due stop timer of a RUNNING line makes it STOPPED, its last cut time kept; a due second mark in RUN
adds one running or stopped second to each assigned line by its condition, and outside RUN nothing. Storage holds no
error. -/
def Obligations.StopTimerAndSecondMark : Prop :=
  ∀ (s : State), s.sound →
    (∀ (l : Fin 8) (u : Nat), s.run ≠ .pass → (s.lineInput l).running = true → (s.lineInput l).stopAt = some u →
      u ≤ s.clock.elapsed → exec (.stopTimerExpiry l) s = .next (settle { s with
        lineInputs := vset s.lineInputs l { s.lineInput l with running := false, stopAt := none } })) ∧
    (s.clock.secondDue = true → ∃ t, exec .secondMark s = .next t ∧ t.clock = { s.clock with secondDue := false } ∧
      (∀ l, t.lLive l =
        if s.run = .run ∧ s.assigned l then
          (if (s.lineInput l).running then
            { s.lLive l with runningSeconds := min 4294967295 ((s.lLive l).runningSeconds + 1) }
           else { s.lLive l with stoppedSeconds := min 4294967295 ((s.lLive l).stoppedSeconds + 1) })
        else s.lLive l) ∧
      t.furnaceLive = s.furnaceLive ∧ t.lineInputs = s.lineInputs)

/-- R88 to R90: a due level change of REV is a reversal: its time becomes the last reversal time; with a blanking time
blanking runs until that time from it, and with a blanking time of 0 a blanking in progress ends with it; in RUN the
live set counts it, with the interval from the reversal before in whole seconds rounded up. R90: a due end of blanking
ends the furnace's blanking. R40, R62: at either end every LIVE reversal-sensitive ENERGY or CREDIT stream of the
furnace with its stale deferral mark set enters STALE, the mark clear, its interval timer from now, STRM STALE raised;
in RUN it books the held rate times the whole seconds since its last good sample as an estimate, in the order of the
streams, and joins the furnace's held streams. The other streams, lines and furnaces stay. Storage holds no error. -/
def Obligations.BlankingStartsAndEnds : Prop :=
  ∀ (f : Fin 4) (s : State), s.sound →
    let now := s.clock.elapsed
    let old := (s.fLive f).base
    let waits (st : Stream) : Bool := decide (st.live.state = .live ∧ st.live.deferral = true ∧
      st.entry.sensitive = true ∧ (st.entry.category = .energy ∨ st.entry.category = .credit) ∧
      st.entry.target = .furnace f)
    let gap (v : StreamLive) : Nat := v.heldRate * ((now - v.lastGood.getD now) / 1000)
    let whole (st : Stream) : Nat := gap st.live * st.entry.factor / 65536 + st.live.remainder
    let released (st : Stream) : StreamLive := { st.live with
      state := .stale, staleAt := none, deferral := false, intervalAt := some (now + st.entry.interval * 1000)
      remainder := if s.run = .run then whole st % 65536 else st.live.remainder
      pending := if s.run = .run then min (st.live.pending + gap st.live) (cap48 * 65536 + 65535)
        else st.live.pending }
    let booked (p : Stream → Bool) (x : Nat) : Nat :=
      let l := (List.finRange 48).filterMap fun k => ((s.stream k).filter fun st => waits st && p st).map fun st =>
        whole st / 65536
      if s.run = .run ∧ l ≠ [] then min cap48 (x + l.sum) else x
    let ends (t : State) : Prop :=
      (∀ k st, s.stream k = some st → waits st = true → t.stream k = some { st with live := released st } ∧
        t.attention.isPending .strm = true ∧ (vget t.attention.strm k).stale = true) ∧
      (∀ k, (∀ st, s.stream k = some st → waits st = false) → t.stream k = s.stream k ∧
        vget t.attention.strm k = vget s.attention.strm k) ∧
      (∀ kd, (t.fLive f).base.energy.get kd =
        booked (fun st => decide (st.entry.category = .energy ∧ st.entry.kind = kd)) (old.energy.get kd)) ∧
      (t.fLive f).base.credit = booked (fun st => decide (st.entry.category = .credit)) old.credit ∧
      (t.fLive f).base.estimated = booked (fun _ => true) old.estimated ∧
      (t.fLive f).base.correction = old.correction ∧
      ∀ k, vget (t.fLive f).base.held k =
        (vget old.held k || decide (s.run = .run) && (s.stream k).any waits)
    let others (t : State) : Prop := (∀ i, i ≠ f → t.fLive i = s.fLive i ∧ t.furnaceInput i = s.furnaceInput i) ∧
      t.lineLive = s.lineLive ∧ t.lineInputs = s.lineInputs
    (∀ (c : Filter) (u : Nat), s.furnaceTracked f = true → (s.furnaceInput f).rev = some c → c.since = some u →
      u + 100 ≤ now →
      let blanking := (s.furnaceCfg f).blanking
      let lifted := blanking = 0 ∧ (s.furnaceInput f).blankingEnd.isSome
      ∃ t, exec (.reversal f) s = .next t ∧ (t.furnaceInput f).lastReversal = some now ∧
        (t.furnaceInput f).blankingEnd = (if blanking = 0 then none else some (now + blanking * 1000)) ∧
        t.fLive f = (if s.run = .run then
          { s.fLive f with
            base := (t.fLive f).base
            reversals := min 4294967295 ((s.fLive f).reversals + 1)
            lastReversal := match (s.furnaceInput f).lastReversal with
              | some x => min 4294967295 ((now - x + 999) / 1000)
              | none => (s.fLive f).lastReversal }
          else s.fLive f) ∧
        (lifted → ends t) ∧ (¬lifted → t.streams = s.streams ∧ (t.fLive f).base = old) ∧ others t) ∧
    ∀ u : Nat, s.run ≠ .pass → (s.furnaceInput f).blankingEnd = some u → u ≤ now →
      ∃ t, exec (.endOfBlanking f) s = .next t ∧
        t.furnaceInput f = { s.furnaceInput f with blankingEnd := none } ∧
        t.fLive f = { s.fLive f with base := (t.fLive f).base } ∧ ends t ∧ others t

/-! ### Clock and closes -/

/-- R108, R109, R12, R45, R11: a swap fills the group's closing set from the live sets, limits, run state, cause, period
number and instant of its event, with the configuration-fault marks, which it clears; fresh live sets start at the
event, with the silent streams held; the period number moves on, from 4,294,967,295 to 1. No other group changes.
Storage holds no error. That a swap in HALT holds the silent streams too, as R45 and R108 say of each swap, is the
model's reading beside R11 and R44 (log 13). -/
def Obligations.SwapFillsTheClosingSet : Prop :=
  ∀ (g : Fin 4) (cause : Cause) (s : State), s.sound → (s.group g).period ≤ 4294967295 →
    let t := s.swap g cause
    let now : Stamp := ⟨s.clock.sec, s.clock.ms, s.clock.timeSet, s.clock.elapsed⟩
    let held (a : Account) : HeldSet := vgen fun k => (s.stream k).any fun st =>
      decide (st.entry.target = a ∧ (st.live.state = .stale ∨ st.live.state = .lost))
    t.group g = { s.group g with
      closing := some
        { furnace := s.fLive g
          limits := ⟨(s.furnaceCfg g).lowMass, (s.furnaceCfg g).bandLow, (s.furnaceCfg g).bandHigh⟩
          lines := (s.linesOf g).map fun l =>
            { line := l, live := s.lLive l
              limits := ⟨(s.lineCfg l).lowMass, (s.lineCfg l).bandLow, (s.lineCfg l).bandHigh⟩ }
          halted := decide (s.run = .halt)
          cause := cause
          period := (s.group g).period
          stop := now
          configFault := vget s.check.furnaceMarks g || (s.linesOf g).any fun l => vget s.check.lineMarks l }
      period := if (s.group g).period = 4294967295 then 1 else (s.group g).period + 1 } ∧
    t.fLive g = { base := { held := held (.furnace g), start := now } } ∧
    (∀ l, (s.lineCfg l).furnace = some g →
      t.lLive l = { base := { held := held (.line l), start := now } } ∧ vget t.check.lineMarks l = false) ∧
    vget t.check.furnaceMarks g = false ∧
    (∀ i, i ≠ g → t.group i = s.group i ∧ t.fLive i = s.fLive i ∧
      vget t.check.furnaceMarks i = vget s.check.furnaceMarks i) ∧
    (∀ l, (s.lineCfg l).furnace ≠ some g → t.lLive l = s.lLive l ∧ t.lineInput l = s.lineInput l ∧
      vget t.check.lineMarks l = vget s.check.lineMarks l) ∧
    t.streams = s.streams ∧ t.clock = s.clock ∧ t.records = s.records ∧ t.furnaces = s.furnaces ∧
    t.lines = s.lines ∧ t.furnaceInputs = s.furnaceInputs

/-- R104: clos follows its table: BADARG for a group that is none or whose furnace is UNUSED, STATE in IDLE and PASS,
BUSY while the group is CLOSING, and otherwise DONE with the number of the period closed, after a swap with cause
COMMAND. -/
def Obligations.ClosFollowsItsTable : Prop :=
  ∀ (src tag g : Byte) (s : State), s.free →
    let cmd : Command := ⟨src, 0x30#8, tag, [g]⟩
    (4 ≤ g.toNat → exec (.clos src tag g) s = .next (s.taken cmd ⟨.badarg, []⟩ s.reserveSlot)) ∧
    ∀ f : Fin 4, f.val = g.toNat → exec (.clos src tag g) s = .next
      (if (s.furnaceCfg f).defined = false then s.taken cmd ⟨.badarg, []⟩ s.reserveSlot
       else if s.run = .idle ∨ s.run = .pass then s.taken cmd ⟨.state, []⟩ s.reserveSlot
       else if (s.group f).closing.isSome then s.taken cmd ⟨.busy, []⟩ s.reserveSlot
       else s.taken cmd ⟨.done, be 4 (s.group f).period⟩ (s.reserveSlot.swap f .command))

/-- R105, R107, R190: a mark frame to the part, in RUN and HALT, swaps with cause MARK each IDLE group that its mask
names, whose furnace is DEFINED, not TIMED, and has the frame's source as its mark source; a CLOSING group so named is
deferred; every other group stays. In IDLE and PASS no group changes. Storage holds no error. -/
def Obligations.MarkIsJudgedPerGroup : Prop :=
  ∀ (port : Side) (dest src mask : Byte) (rest : List Byte) (begun : Begun) (s : State), (s.port port).link = .up →
    rest.length ≤ 247 → dest = s.address ∨ dest = 255#8 → s.sound →
    ∃ t, exec (.markReceived port dest src ⟨mask :: rest, begun⟩) s = .next t ∧ ∀ g : Fin 4,
      let c := s.furnaceCfg g
      let suits := (s.run = .run ∨ s.run = .halt) ∧ mask.getLsbD g.val = true ∧ c.defined = true ∧ c.mode ≠ .timed ∧
        c.markSource ≠ 0 ∧ c.markSource = src.toNat
      (suits → (s.group g).closing = none → t.group g = { s.group g with
        closing := some (s.closingOf g .mark), period := nextPeriod (s.group g).period }) ∧
      (suits → (s.group g).closing.isSome → t.group g = { s.group g with deferred := true }) ∧
      (¬suits → t.group g = s.group g)

/-- R99, R106, R107: a boundary event whose instant plant time has reached swaps the IDLE group with cause TIMED in
RUN and HALT, or defers it while CLOSING, and changes no group in IDLE and PASS; in every run state the next boundary
is computed strictly after. An event not due does nothing (log 7). R93, R100: at the wrap of plant seconds every group's
next boundary is computed from the present plant time, and no group closes. These two with no error in storage. R93,
R94: a step on an empty queue is one millisecond (log 1): the events of `timedEvents` that are due are taken in their
order (log 2), each with what follows every event; then the elapsed base and plant time advance by 1 ms, the
milliseconds wrapping at 1000 into the seconds and the seconds at 2^32, and a second mark is due at each whole second of
the elapsed base. With no command waiting, nothing then stays due of the second mark, the wrap, the boundaries, the
answer event and the completions at their latest instants (log 3), and plant time moves by the advance alone. -/
def Obligations.BoundaryEventsAndTheWrap : Prop :=
  (∀ (g : Fin 4) (s : State) (b : Nat), s.sound → s.boundary g = some b →
    (s.clock.sec < b → exec (.boundaryEvent g) s = .next (settle s)) ∧
    (b ≤ s.clock.sec → ∃ t, exec (.boundaryEvent g) s = .next t ∧
      t.boundary g = (if (s.furnaceCfg g).defined ∧ (s.furnaceCfg g).mode ≠ .marked ∧ s.clock.timeSet then
        nextBoundary (s.furnaceCfg g).offset (s.furnaceCfg g).length s.clock.sec else none) ∧
      t.group g = (if s.run = .run ∨ s.run = .halt then
        (if (s.group g).closing.isSome then { s.group g with deferred := true }
         else { s.group g with
          closing := some (s.closingOf g .timed), period := nextPeriod (s.group g).period })
        else s.group g) ∧
      ∀ i, i ≠ g → t.group i = s.group i ∧ t.boundary i = s.boundary i)) ∧
  (∀ s : State, s.sound → s.clock.wrapDue = true →
    ∃ t, exec .plantSecondsWrap s = .next t ∧ t.groups = s.groups ∧ t.lineLive = s.lineLive ∧
      t.furnaceLive = s.furnaceLive ∧ t.clock.sec = s.clock.sec ∧ t.clock.timeSet = s.clock.timeSet ∧
      t.clock.wrapDue = false ∧ ∀ g, t.boundary g =
        if (s.furnaceCfg g).defined ∧ (s.furnaceCfg g).mode ≠ .marked ∧ s.clock.timeSet then
          nextBoundary (s.furnaceCfg g).offset (s.furnaceCfg g).length s.clock.sec else none) ∧
  ∀ s : State, s.pending = [] →
    let u := timedEvents.foldl (fun t event => settle (event t)) s
    let full := 999 ≤ u.clock.ms
    step s = .next { u with clock := { u.clock with
      elapsed := s.clock.elapsed + 1
      ms := if full then 0 else u.clock.ms + 1
      sec := if full then (if 4294967295 ≤ u.clock.sec then 0 else u.clock.sec + 1) else u.clock.sec
      secondDue := decide ((s.clock.elapsed + 1) % 1000 = 0)
      wrapDue := decide (full ∧ 4294967295 ≤ u.clock.sec) } } ∧
    (s.commands = [] →
      u.clock.sec = s.clock.sec ∧ u.clock.ms = s.clock.ms ∧ u.clock.timeSet = s.clock.timeSet ∧ u.run = s.run ∧
      u.clock.secondDue = false ∧ u.clock.wrapDue = false ∧ (∀ g b, u.boundary g = some b → s.clock.sec < b) ∧
      (∀ x, u.executing = some x → s.clock.elapsed < x.due) ∧
      ∀ g c, (u.group g).closing = some c → s.clock.elapsed < c.stop.elapsed + 20)

/-- R95, R100, R101: sett with milliseconds up to 999 sets plant time and the time-set flag, computes every next
boundary and marks TIME-ADJUSTED, in RUN and HALT, the live sets of the defined furnaces and assigned lines. A group
whose boundary it reaches is deferred where it is CLOSING; where it is IDLE it closes once with cause TIMED, its closing
set carrying the marks and its fresh live sets none (`State.Jumped`). More than 999 ms is BADARG. The elapsed base
stays. Storage holds no error. -/
def Obligations.SetTimeJumps : Prop :=
  ∀ (src tag : Byte) (sec : BitVec 32) (ms : BitVec 16) (s : State), s.free → s.sound →
    (999 < ms.toNat → exec (.sett src tag sec ms) s =
      .next (s.taken ⟨src, 0x40#8, tag, be 4 sec.toNat ++ be 2 ms.toNat⟩ ⟨.badarg, []⟩ s.reserveSlot)) ∧
    (ms.toNat ≤ 999 → ∃ t, exec (.sett src tag sec ms) s = .next t ∧ t.answers 0x40#8 ⟨.done, []⟩ ∧
      t.clock.sec = sec.toNat ∧ t.clock.ms = ms.toNat ∧ t.clock.timeSet = true ∧
      t.clock.elapsed = s.clock.elapsed ∧ s.Jumped t)

/-- R96, R100, R101: adjt checks its offset's range, then the time-set flag, then the resulting plant time; a taken one
adds the offset to plant time in milliseconds, computes every next boundary and marks TIME-ADJUSTED, in RUN and HALT,
the live sets of the defined furnaces and assigned lines. A group whose boundary it reaches is deferred where it is
CLOSING; where it is IDLE it closes once with cause TIMED, its closing set carrying the marks and its fresh live sets
none (`State.Jumped`). Storage holds no error. -/
def Obligations.AdjustTimeChecksAndAdds : Prop :=
  ∀ (src tag : Byte) (offset : BitVec 32) (s : State), s.free → s.sound →
    let cmd : Command := ⟨src, 0x41#8, tag, be 4 offset.toNat⟩
    let sum : Int := ((s.clock.sec * 1000 + s.clock.ms : Nat) : Int) + offset.toInt
    let wide := offset.toInt < -86400000 ∨ 86400000 < offset.toInt
    let outside := sum < 0 ∨ 4294967295999 < sum
    (wide → exec (.adjt src tag offset) s = .next (s.taken cmd ⟨.badarg, []⟩ s.reserveSlot)) ∧
    (¬wide → s.clock.timeSet = false →
      exec (.adjt src tag offset) s = .next (s.taken cmd ⟨.state, []⟩ s.reserveSlot)) ∧
    (¬wide → s.clock.timeSet = true → outside →
      exec (.adjt src tag offset) s = .next (s.taken cmd ⟨.badarg, []⟩ s.reserveSlot)) ∧
    (¬wide → s.clock.timeSet = true → ¬outside → ∃ t, exec (.adjt src tag offset) s = .next t ∧
      t.answers 0x41#8 ⟨.done, []⟩ ∧ ((t.clock.sec * 1000 + t.clock.ms : Nat) : Int) = sum ∧ t.clock.ms ≤ 999 ∧
      t.clock.timeSet = true ∧ t.clock.elapsed = s.clock.elapsed ∧ s.Jumped t)

/-- R123, R132, R137, R121: the completion of a close in flight discards the queued records of its group whose period
number is not below its own, then the oldest record where 32 are left; each adds to the lost count, and the new record,
appended as the newest, then carries OVERWROTE. The record is added to the totals of the furnace and of each of its
lines, with SAT where one would pass 48 bits; PCLS is raised with the group, and RATO with the accounts that have a
ratio out of its band. Where nothing was deferred the closing set is emptied, the group is IDLE, and no live set
changes. R124, R107: with the deferred flag set, the flag clears and the group swaps at once with cause DEFERRED: it
stays CLOSING with the next period's set. No other group changes. Storage holds no error. An event of a group without a
close does nothing (log 7). R111 to R113, R117, R119, R120, R122, R128 to R130: the record's figures are those of the
closing set: the nets with their clamp, the masses with theirs, packed mass with REJ>FORM, line totals, each ratio of
its energy and its mass, the cullet per mille, the record flags, the instants, duration, cause and period (shares and
ratios: `SharesSumToTheNet`, `RatioRoundsToNearest`). -/
def Obligations.CompletionDeliversTheRecord : Prop :=
  (∀ (g : Fin 4) (s : State), (s.group g).closing = none → exec (.closeCompletion g) s = .next (settle s)) ∧
  (∀ (g : Fin 4) (s : State) (c : ClosingSet), s.sound → (s.group g).closing = some c →
    let r := c.record g
    let out (x : RatioItem) (m : Limits) : Bool := x.value.any fun v => decide (v < m.bandLow ∨ m.bandHigh < v)
    let lineOut (l : Fin 8) : Bool := (c.lines.zip r.lines).any fun y =>
      decide (y.1.line = l) && (out y.2.pull y.1.limits || out y.2.pack y.1.limits)
    let kept := s.records.filter fun x => !decide (x.group = g ∧ c.period ≤ x.period)
    let full := 32 ≤ kept.length
    let gone := s.records.length - kept.length + if full then 1 else 0
    let add (x w : Nat) : Nat := min 281474976710655 (x + w)
    let tops (x w : Nat) : Bool := decide (281474976710655 < x + w)
    let line (t : LineTotals) (e : LineEntry) : LineTotals :=
      { net := add t.net e.net, share := add t.share e.share, total := add t.total e.total
        pulled := add t.pulled e.pulled, formed := add t.formed e.formed, diverted := add t.diverted e.diverted
        rejected := add t.rejected e.rejected, packed := add t.packed e.packed, cuts := add t.cuts e.cuts
        closes := min 4294967295 (t.closes + 1)
        sat := t.sat || tops t.net e.net || tops t.share e.share || tops t.total e.total || tops t.pulled e.pulled ||
          tops t.formed e.formed || tops t.diverted e.diverted || tops t.rejected e.rejected ||
          tops t.packed e.packed || tops t.cuts e.cuts }
    let f := vget s.furnaceTotals g
    let p := r.furnace
    ∃ t, exec (.closeCompletion g) s = .next t ∧
      t.records = (if full then kept.drop 1 else kept) ++
        [{ r with flags := { r.flags with overwrote := decide (gone ≠ 0) } }] ∧
      t.lost = (if gone = 0 then s.lost else min 65535 (s.lost + gone)) ∧
      vget t.furnaceTotals g =
        { net := add f.net p.net, unallotted := add f.unallotted (p.unallotted.getD 0), credit := add f.credit p.credit
          estimated := add f.estimated p.estimated, charge := add f.charge p.charge, cullet := add f.cullet p.cullet
          pulled := add f.pulled p.pulled, closes := min 4294967295 (f.closes + 1)
          sat := f.sat || tops f.net p.net || tops f.unallotted (p.unallotted.getD 0) || tops f.credit p.credit ||
            tops f.estimated p.estimated || tops f.charge p.charge || tops f.cullet p.cullet ||
            tops f.pulled p.pulled } ∧
      (∀ i, i ≠ g → vget t.furnaceTotals i = vget s.furnaceTotals i) ∧
      (∀ l, vget t.lineTotals l = (r.lines.filter fun e => decide (e.line = l)).foldl line (vget s.lineTotals l)) ∧
      t.attention.isPending .pcls = true ∧ vget t.attention.pcls g = true ∧
      (∀ i, vget t.attention.ratoFurnaces i =
        (vget s.attention.ratoFurnaces i || decide (i = g) && out p.melt c.limits)) ∧
      (∀ l, vget t.attention.ratoLines l = (vget s.attention.ratoLines l || lineOut l)) ∧
      t.attention.isPending .rato =
        (s.attention.isPending .rato || out p.melt c.limits || (List.finRange 8).any lineOut) ∧
      (∀ i, i ≠ g → t.group i = s.group i ∧ t.fLive i = s.fLive i) ∧ t.streams = s.streams ∧
      ((s.group g).deferred = false → t.group g = { s.group g with closing := none } ∧
        t.furnaceLive = s.furnaceLive ∧ t.lineLive = s.lineLive) ∧
      ((s.group g).deferred = true → ∃ x, t.group g =
          { closing := some x, deferred := false, period := nextPeriod (s.group g).period } ∧
        x.cause = .deferred ∧ x.period = (s.group g).period ∧ x.furnace = s.fLive g ∧
        (x.lines.map fun y => (y.line, y.live)) = (s.linesOf g).map (fun l => (l, s.lLive l)) ∧
        x.halted = decide (s.run = .halt))) ∧
  ∀ (g : Fin 4) (c : ClosingSet),
    let r := c.record g
    let most : Nat := 281474976710655
    let exact (b : LiveBase) : Int :=
      ((b.energy.gas + b.energy.oil + b.energy.elec + b.energy.oxy + b.energy.aux : Nat) : Int) - (b.credit : Int) +
        b.correction
    let net (b : LiveBase) : Nat := if exact b < 0 then 0 else min (exact b).toNat most
    let pulled (x : LineLive) : Nat := min (x.formed.grams + x.diverted.grams) most
    let packed (x : LineLive) : Nat := x.formed.grams - x.rejected.grams
    let f := c.furnace
    let mass := (c.lines.map fun y => pulled y.live).sum
    let batch := f.charge + f.cullet
    let bases := f.base :: c.lines.map fun y => y.live.base
    r = { r with
      group := g, period := c.period, start := f.base.start, stop := c.stop
      duration := c.stop.elapsed - f.base.start.elapsed, cause := c.cause
      flags :=
        { timeAdjusted := bases.any fun b => b.flags.timeAdjusted
          overwrote := false
          sat := (bases.any fun b => b.flags.sat || decide ((most : Int) < exact b)) ||
            (c.lines.any fun y => decide (most < y.live.formed.grams + y.live.diverted.grams)) ||
            decide (most < mass) ||
            r.lines.any fun e => decide (most < e.net + e.share)
          negnet := bases.any fun b => decide (exact b < 0)
          suspect := (bases.any fun b => b.flags.suspect) || c.configFault
          halted := c.halted }
      furnace :=
        { energy := f.base.energy, credit := f.base.credit, estimated := f.base.estimated
          correction := f.base.correction, net := net f.base, charge := f.charge, cullet := f.cullet
          pulled := min mass most, unallotted := if mass = 0 then some (net f.base) else none
          perMille := if batch = 0 then none else some ((2000 * f.cullet + batch) / (2 * batch))
          reversals := f.reversals, lastReversal := f.lastReversal
          melt := ratioItem (net f.base) mass c.limits.lowMass false, held := f.base.held }
      ratio := ratioItem (net f.base + (c.lines.map fun y => net y.live.base).sum)
        (c.lines.map fun y => packed y.live).sum c.limits.lowMass false } ∧
    r.lines.length = c.lines.length ∧
    ∀ (i : Nat) (y : ClosingLine) (e : LineEntry), c.lines[i]? = some y → r.lines[i]? = some e →
      let x := y.live
      let total := min (net x.base + e.share) most
      e = { e with
        line := y.line, energy := x.base.energy, credit := x.base.credit, estimated := x.base.estimated
        correction := x.base.correction, net := net x.base, total := total, cuts := x.cuts
        divertedCuts := x.divertedCuts, pulled := pulled x
        diverted := if most < x.formed.grams + x.diverted.grams then most - x.formed.grams else x.diverted.grams
        formed := x.formed.grams, rejected := x.rejected.grams, packed := packed x, rejectWare := x.rejectWare
        runningSeconds := x.runningSeconds, stoppedSeconds := x.stoppedSeconds, jobChanges := x.jobChanges
        weightHolds := x.weightHolds, cutIntervals := x.cutIntervals
        pull := ratioItem total (pulled x) y.limits.lowMass false
        pack := ratioItem total (packed x) y.limits.lowMass (decide (x.formed.grams < x.rejected.grams))
        held := x.base.held } ∧
      e.share = (shares (net f.base) (c.lines.map fun z => pulled z.live)).getD i 0

/-! ### Records and the snapshot -/

/-- R134, R135: look and take follow their tables: a piece number past 8 (and, for take, a group past 3) is BADARG; an
empty queue EMPTY; for take, another identity than the oldest record's STATE with that identity; a piece the record does
not have BADARG; otherwise the oldest record's piece. A take of the last piece removes the record; nothing else changes.
R192, R191: a piece is its prefix and then, in order, the fields of the head or of a line entry, an absent item left out
where the presence byte or the flags say so. Storage holds no error. -/
def Obligations.RecordsAreLookedAtAndTaken : Prop :=
  ∀ (src tag p g : Byte) (n : BitVec 32) (s : State), s.free → s.sound →
    let kinds (e : Energy) : List Byte := listBytes (fun x : Nat × Nat => be 1 x.1 ++ be 6 x.2)
      ([(0, e.gas), (1, e.oil), (2, e.elec), (3, e.oxy), (4, e.aux)].filter fun x => decide (x.2 ≠ 0))
    let streams (h : HeldSet) : List Byte :=
      listBytes (fun k : Fin 48 => be 1 k.val) ((List.finRange 48).filter fun k => vget h k)
    let ratio (x : RatioItem) : List Byte :=
      be 1 (maskNat [x.value.isNone, x.lowMass, x.sat, x.rejOverForm]) ++ x.value.elim [] (be 4)
    let signed (c : Int) : List Byte := if c = 0 then [] else beInt 6 c
    let name (r : GroupRecord) : List Byte := be 1 r.group.val ++ be 4 r.period ++ be 1 (1 + r.lines.length)
    let head (r : GroupRecord) : List Byte :=
      let x := r.furnace
      be 4 r.start.sec ++ be 2 r.start.ms ++ be 4 r.stop.sec ++ be 2 r.stop.ms ++
        be 1 (maskNat [r.start.timeSet, r.stop.timeSet]) ++ be 6 r.duration ++
        be 1 (match r.cause with
          | .mark => 0
          | .command => 1
          | .timed => 2
          | .deferred => 3) ++
        be 1 (maskNat [r.flags.timeAdjusted, r.flags.overwrote, r.flags.sat, r.flags.negnet, r.flags.suspect,
          r.flags.halted]) ++
        listBytes (fun e : LineEntry => be 1 e.line.val) r.lines ++
        be 1 (maskNat [decide (x.correction ≠ 0), x.unallotted.isSome, x.perMille.isSome]) ++
        kinds x.energy ++ be 6 x.credit ++ be 6 x.estimated ++ signed x.correction ++ be 6 x.net ++ be 6 x.charge ++
        be 6 x.cullet ++ be 6 x.pulled ++ x.unallotted.elim [] (be 6) ++ x.perMille.elim [] (be 2) ++
        be 4 x.reversals ++ be 4 x.lastReversal ++ ratio x.melt ++ streams x.held ++ ratio r.ratio
    let line (e : LineEntry) : List Byte :=
      be 1 e.line.val ++ be 1 (maskNat [decide (e.correction ≠ 0), e.cutIntervals.isSome]) ++ kinds e.energy ++
        be 6 e.credit ++ be 6 e.estimated ++ signed e.correction ++ be 6 e.net ++ be 6 e.share ++ be 6 e.total ++
        be 4 e.cuts ++ be 4 e.divertedCuts ++ be 6 e.pulled ++ be 6 e.diverted ++ be 6 e.formed ++ be 6 e.rejected ++
        be 6 e.packed ++ be 4 e.rejectWare ++ be 4 e.runningSeconds ++ be 4 e.stoppedSeconds ++ be 4 e.jobChanges ++
        be 4 e.weightHolds ++ e.cutIntervals.elim [] (fun x => be 2 x.1 ++ be 2 x.2) ++ ratio e.pull ++
        ratio e.pack ++ streams e.held
    let piece (r : GroupRecord) (i : Nat) : List Byte :=
      name r ++ be 1 i ++ if i = 0 then head r else (r.lines[i - 1]?).elim [] line
    (exec (.look src tag p) s = .next (s.taken ⟨src, 0x34#8, tag, [p]⟩
      (if 8 < p.toNat then ⟨.badarg, []⟩
       else match s.records with
        | [] => ⟨.empty, []⟩
        | r :: _ => if r.lines.length < p.toNat then ⟨.badarg, []⟩ else ⟨.done, piece r p.toNat⟩) s.reserveSlot)) ∧
    let cmd : Command := ⟨src, 0x33#8, tag, [p, g] ++ be 4 n.toNat⟩
    exec (.take src tag p g n) s = .next
      (if 8 < p.toNat ∨ 3 < g.toNat then s.taken cmd ⟨.badarg, []⟩ s.reserveSlot
       else match s.records with
        | [] => s.taken cmd ⟨.empty, []⟩ s.reserveSlot
        | r :: rest =>
          if r.group.val ≠ g.toNat ∨ r.period ≠ n.toNat then s.taken cmd ⟨.state, name r⟩ s.reserveSlot
          else if r.lines.length < p.toNat then s.taken cmd ⟨.badarg, []⟩ s.reserveSlot
          else s.taken cmd ⟨.done, (if p.toNat = r.lines.length then 1#8 else 0#8) :: piece r p.toNat⟩
            { s.reserveSlot with records := if p.toNat = r.lines.length then rest else s.records })

/-- R141, R143: snap of a group that is none, or whose furnace is UNUSED, is BADARG; otherwise it copies the live sets
and input state of the group, in line order, as the snapshot. rdsn follows its table and changes nothing. R193, R191: a
piece is its prefix and snapshot time and then, in order, the fields of the furnace's live set, or of a line's live set,
input state and job record. Storage holds no error. -/
def Obligations.SnapshotIsTakenAndRead : Prop :=
  ∀ (src tag b : Byte) (s : State), s.free → s.sound →
    let instant (x : Stamp) : List Byte := be 4 x.sec ++ be 2 x.ms ++ flagByte x.timeSet ++ be 6 x.elapsed
    let energies (x : Energy) : List Byte := be 6 x.gas ++ be 6 x.oil ++ be 6 x.elec ++ be 6 x.oxy ++ be 6 x.aux
    let streams (h : HeldSet) : List Byte :=
      listBytes (fun k : Fin 48 => be 1 k.val) ((List.finRange 48).filter fun k => vget h k)
    let ends (x : LiveBase) : List Byte :=
      streams x.held ++ instant x.start ++ be 1 (maskNat [x.flags.sat, x.flags.suspect, x.flags.timeAdjusted])
    let mass (x : Mass) : List Byte := be 6 x.grams ++ be 1 x.tenths
    let furnace (x : FurnaceLive) : List Byte :=
      energies x.base.energy ++ be 6 x.base.credit ++ be 6 x.base.estimated ++ beInt 6 x.base.correction ++
        be 6 x.charge ++ be 6 x.cullet ++ be 4 x.reversals ++ be 4 x.lastReversal ++ ends x.base
    let line (y : SnapLine) : List Byte :=
      let x := y.live
      be 1 y.line.val ++ be 1 (maskNat [x.cutIntervals.isSome, y.lastInterval.isSome]) ++ energies x.base.energy ++
        be 6 x.base.credit ++ be 6 x.base.estimated ++ beInt 6 x.base.correction ++ be 4 x.cuts ++
        be 4 x.divertedCuts ++ mass x.formed ++ mass x.diverted ++ mass x.rejected ++ be 4 x.rejectWare ++
        be 4 x.runningSeconds ++ be 4 x.stoppedSeconds ++ be 4 x.jobChanges ++ be 4 x.weightHolds ++
        x.cutIntervals.elim [] (fun i => be 2 i.1 ++ be 2 i.2) ++ ends x.base ++ flagByte y.running ++
        y.lastInterval.elim [] (be 2) ++ be 4 y.cutBounces ++ be 4 y.rejectBounces ++ be 1 y.job.gobs ++
        be 2 y.job.weight
    (4 ≤ b.toNat → exec (.snap src tag b) s =
      .next (s.taken ⟨src, 0x31#8, tag, [b]⟩ ⟨.badarg, []⟩ s.reserveSlot)) ∧
    (∀ f : Fin 4, f.val = b.toNat →
      let x : Snapshot :=
        { group := f, period := (s.group f).period, closing := (s.group f).closing.isSome
          time := ⟨s.clock.sec, s.clock.ms, s.clock.timeSet, s.clock.elapsed⟩
          furnace := s.fLive f
          lines := (s.linesOf f).map fun l =>
            { line := l, live := s.lLive l, running := (s.lineInput l).running
              lastInterval := (s.lineInput l).lastInterval, cutBounces := (s.lineInput l).cutBounces
              rejectBounces := (s.lineInput l).rejectBounces, job := s.job l } }
      exec (.snap src tag b) s = .next
        (if (s.furnaceCfg f).defined then
          s.taken ⟨src, 0x31#8, tag, [b]⟩
            ⟨.done, be 1 f.val ++ be 4 x.period ++ flagByte x.closing ++ instant x.time ++
              be 1 (1 + (s.linesOf f).length)⟩ { s.reserveSlot with snapshot := some x }
         else s.taken ⟨src, 0x31#8, tag, [b]⟩ ⟨.badarg, []⟩ s.reserveSlot)) ∧
    exec (.rdsn src tag b) s = .next (s.taken ⟨src, 0x32#8, tag, [b]⟩
      (if 8 < b.toNat then ⟨.badarg, []⟩
       else match s.snapshot with
        | none => ⟨.state, []⟩
        | some x =>
          if x.lines.length < b.toNat then ⟨.badarg, []⟩
          else ⟨.done, be 1 x.group.val ++ be 4 x.period ++ be 1 (1 + x.lines.length) ++ [b] ++ instant x.time ++
            if b = 0#8 then furnace x.furnace else (x.lines[b.toNat - 1]?).elim [] line⟩)
      s.reserveSlot)

/-! ### Attention -/

/-- R180: a source is eligible when it is pending, unmasked, within the threshold, more urgent than every other source
in service, and not itself in service but as a latched source with nesting on; the highest is the most urgent eligible
one, the earlier in the tie order (the codes' order) among equals, and there is none exactly when none is eligible. R179:
LSTP is pending while, outside PASS, an assigned line with its stop-alert flag is STOPPED, and QFUL while 24 records are
queued. R181: where the highest source differs from the last-alerted one, one alrt with its code and priority is placed
in the plant port's local queue, unless the destination is 0, the port is not UP, or no slot is free; the last-alerted
source follows it, also to none. R163: then an idle transmitter starts a frame that is ready (log 10). Nothing else
moves. -/
def Obligations.AlertOnChange : Prop :=
  (∀ a : Attention,
    let eligible (x : Source) : Prop :=
      a.isPending x = true ∧ a.isMasked x = false ∧ a.prio x ≤ a.threshold ∧
      (∀ y, y ≠ x → a.isInService y = true → a.prio x < a.prio y) ∧
      (a.isInService x = false ∨ (x ≠ .lstp ∧ x ≠ .qful ∧ a.nests x = true))
    (a.highest = none ↔ ∀ x, ¬eligible x) ∧
    ∀ x, a.highest = some x ↔ eligible x ∧ ∀ y, eligible y → y ≠ x →
      a.prio x < a.prio y ∨ (a.prio x = a.prio y ∧ x.code < y.code)) ∧
  (∀ s : State,
    let a := s.refreshLevels.attention
    (a.isPending .lstp = true ↔ s.run ≠ .pass ∧ ∃ l : Fin 8, (s.lineCfg l).furnace ≠ none ∧
      (s.lineCfg l).stopAlert = true ∧ (s.lineInput l).running = false) ∧
    (a.isPending .qful = true ↔ 24 ≤ s.records.length) ∧
    ∀ x, x ≠ .lstp → x ≠ .qful → a.isPending x = s.attention.isPending x) ∧
  ∀ s : State,
    let h := s.refreshLevels.attention.highest
    let told : State := { s with attention := { s.refreshLevels.attention with lastAlerted := h } }
    let alert : State :=
      match h with
      | none => told
      | some x =>
        if s.attention.lastAlerted ≠ some x ∧ s.attention.destination ≠ 0#8 ∧ s.plant.link = .up ∧ s.plant.slots < 6 then
          { told with plant := { s.plant with localQueue := s.plant.localQueue ++
            [{ dest := s.attention.destination, src := s.address, kind := 7#8
               payload := [BitVec.ofNat 8 x.code.val, BitVec.ofNat 8 (s.attention.prio x)] }] } }
        else told
    settle s = (alert.startIdle .field).startIdle .plant

/-- R182, R183: ldat and atds check their arguments; an ldat for a source in service is STATE; otherwise the source's
priority, mask and nesting flag, or the destination and threshold, take the new values, and a changed destination
makes the last-alerted source none. Nothing else moves before eligibility is judged afresh (`State.taken`). -/
def Obligations.AttentionSourcesLoad : Prop :=
  ∀ (src tag x p m n : Byte) (s : State), s.free →
    let ldat : Command := ⟨src, 0x50#8, tag, [x, p, m, n]⟩
    let atds : Command := ⟨src, 0x51#8, tag, [x, p]⟩
    (6 < x.toNat ∨ 7 < p.toNat ∨ 1 < m.toNat ∨ 1 < n.toNat →
      exec (.ldat src tag x p m n) s = .next (s.taken ldat ⟨.badarg, []⟩ s.reserveSlot)) ∧
    (∀ y : Source, y.code.val = x.toNat → p.toNat ≤ 7 → m.toNat ≤ 1 → n.toNat ≤ 1 →
      exec (.ldat src tag x p m n) s = .next
        (if s.attention.isInService y then s.taken ldat ⟨.state, []⟩ s.reserveSlot
         else s.taken ldat ⟨.done, []⟩ { s.reserveSlot with attention := { s.attention with
          priority := vset s.attention.priority y.code p.toNat
          masked := vset s.attention.masked y.code (m == 1#8)
          nesting := vset s.attention.nesting y.code (n == 1#8) } })) ∧
    (7 < p.toNat → exec (.atds src tag x p) s = .next (s.taken atds ⟨.badarg, []⟩ s.reserveSlot)) ∧
    (p.toNat ≤ 7 → exec (.atds src tag x p) s = .next (s.taken atds ⟨.done, []⟩
      { s.reserveSlot with attention := { s.attention with
        destination := x
        threshold := p.toNat
        lastAlerted := if s.attention.destination = x then s.attention.lastAlerted else none } }))

/-- R185: with no eligible source ackn answers NONE and changes nothing; otherwise the highest eligible source enters
service, the answer carries it with its priority and cause set (R191: a cause map for STRM, a set of accounts for RATO,
of groups for PCLS, else nothing), a latched source leaves the pending set with its cause set emptied, a level source
stays pending, and the last-alerted source becomes none before eligibility is judged afresh. -/
def Obligations.AcknowledgeTakesTheHighest : Prop :=
  ∀ (src tag : Byte) (s : State), s.free →
    let cmd : Command := ⟨src, 0x53#8, tag, []⟩
    let a := s.attention
    let mask (c : StreamCauses) : Nat := maskNat [c.stale, c.lost, c.jump, c.format, c.fault]
    let causes : Source → List Byte
      | .strm => listBytes (fun k : Fin 48 => be 1 k.val ++ be 1 (mask (vget a.strm k)))
          ((List.finRange 48).filter fun k => decide (mask (vget a.strm k) ≠ 0))
      | .rato => be 2 (maskNat (a.ratoFurnaces.toList ++ a.ratoLines.toList))
      | .pcls => be 1 (maskNat a.pcls.toList)
      | _ => []
    (a.highest = none → exec (.ackn src tag) s = .next (s.taken cmd ⟨.none, []⟩ s.reserveSlot)) ∧
    ∀ x, a.highest = some x → exec (.ackn src tag) s = .next (s.taken cmd
      ⟨.done, [BitVec.ofNat 8 x.code.val, BitVec.ofNat 8 (a.prio x)] ++ causes x⟩
      { s.reserveSlot with attention := { a with
        inService := vset a.inService x.code true
        lastAlerted := none
        pending := if x = .lstp ∨ x = .qful then a.pending else vset a.pending x.code false
        strm := if x = .strm then Vector.replicate 48 {} else a.strm
        ratoFurnaces := if x = .rato then Vector.replicate 4 false else a.ratoFurnaces
        ratoLines := if x = .rato then Vector.replicate 8 false else a.ratoLines
        pcls := if x = .pcls then Vector.replicate 4 false else a.pcls } })

/-- R186, R187: eoas takes the source it names out of service and answers the set in service that is left, BADARG for
a source that is none; eoan takes the most urgent source in service out and answers it, and with none in service
answers none and changes nothing. Eligibility is then judged afresh (`State.taken`). -/
def Obligations.EndOfAttention : Prop :=
  ∀ (src tag b : Byte) (s : State), s.free →
    (6 < b.toNat → exec (.eoas src tag b) s =
      .next (s.taken ⟨src, 0x54#8, tag, [b]⟩ ⟨.badarg, []⟩ s.reserveSlot)) ∧
    (∀ x : Source, x.code.val = b.toNat → exec (.eoas src tag b) s = .next (s.taken ⟨src, 0x54#8, tag, [b]⟩
      ⟨.done, be 1 (maskNat (vset s.attention.inService x.code false).toList)⟩
      { s.reserveSlot with attention := { s.attention with
        inService := vset s.attention.inService x.code false } })) ∧
    ((∀ x, s.attention.isInService x = false) → exec (.eoan src tag) s =
      .next (s.taken ⟨src, 0x55#8, tag, []⟩ ⟨.done, [0#8]⟩ s.reserveSlot)) ∧
    ∀ x : Source, s.attention.isInService x = true →
      (∀ y, s.attention.isInService y = true → y ≠ x → s.attention.prio x < s.attention.prio y) →
      exec (.eoan src tag) s = .next (s.taken ⟨src, 0x55#8, tag, []⟩ ⟨.done, [1#8, BitVec.ofNat 8 x.code.val]⟩
        { s.reserveSlot with attention := { s.attention with
          inService := vset s.attention.inService x.code false } })

/-! ### Storage checking -/

/-- R152, R153: clfl empties both slots and zeroes both counts, and changes nothing else. injf arms a SINGLE or DOUBLE
injection on the item that its region and index name, in place of any armed before; a region, index or kind that is
none is BADARG. -/
def Obligations.FaultRecordClearsAndInjectionsArm : Prop :=
  ∀ (src tag : Byte) (s : State), s.free →
    (exec (.clfl src tag) s = .next (s.taken ⟨src, 0x61#8, tag, []⟩ ⟨.done, []⟩ { s.reserveSlot with
      check := { s.check with first := none, latest := none, uncorrectable := 0, corrected := 0 } })) ∧
    ∀ region index kind : Byte,
      let cmd : Command := ⟨src, 0x62#8, tag, [region, index, kind]⟩
      (4 < region.toNat ∨ (kind ≠ 1#8 ∧ kind ≠ 2#8) ∨ (region = 0#8 ∧ 48 ≤ index.toNat) ∨
        (1 ≤ region.toNat ∧ region.toNat ≤ 3 ∧ 12 ≤ index.toNat) ∨
        (region = 4#8 ∧ s.records.length ≤ index.toNat) →
        exec (.injf src tag region index kind) s = .next (s.taken cmd ⟨.badarg, []⟩ s.reserveSlot)) ∧
      ∀ item : Item, (kind = 1#8 ∨ kind = 2#8) →
        ((∃ k : Fin 48, item = .stream k ∧ region = 0#8 ∧ index.toNat = k.val) ∨
         (∃ a : Account, item = .config a ∧ region = 1#8 ∧ index.toNat = a.number) ∨
         (∃ a : Account, item = .live a ∧ region = 2#8 ∧ index.toNat = a.number) ∨
         (∃ a : Account, item = .closing a ∧ region = 3#8 ∧ index.toNat = a.number) ∨
         (item = .queue index.toNat ∧ region = 4#8 ∧ index.toNat < s.records.length)) →
        exec (.injf src tag region index kind) s = .next (s.taken cmd ⟨.done, []⟩ { s.reserveSlot with
          check := { s.check with armed := some { item := item, double := kind == 2#8 } } })

/-- R145 to R150, R154: a read of an item without error changes nothing, also while an injection is armed on another
item. A SINGLE injection armed on it is corrected and counted, and is disarmed. A DOUBLE one is an uncorrectable fault:
the injection is disarmed, the slots and the count are written, FALT is raised, and the item's owner acts: the stream
entry becomes empty with STRM FAULT, the account's configuration is marked, the live set is SUSPECT in RUN and HALT and
zero in IDLE and PASS, the account's figures in the closing set, or the queued record, are SUSPECT; the other items
(stream entries, configurations, job data, live sets, sets of closing sets, queued records) stay. Stored items hold no
error of their own (log 22). -/
def Obligations.InjectedErrorsAreFound : Prop :=
  ∀ (s : State) (item : Item), s.latent = [] →
    (s.check.armed = none → s.touch item = s) ∧
    (∀ j, s.check.armed = some j → j.item ≠ item → s.touch item = s) ∧
    (s.check.armed = some { item := item, double := false } → s.touch item =
      { s with check := { s.check with armed := none, corrected := min 65535 (s.check.corrected + 1) } }) ∧
    (s.check.armed = some { item := item, double := true } →
      let t := s.touch item
      let slot : FaultSlot := { item := item, time := s.clock.elapsed }
      t.check.armed = none ∧ t.check.first = some (s.check.first.getD slot) ∧ t.check.latest = some slot ∧
      t.check.uncorrectable = min 65535 (s.check.uncorrectable + 1) ∧ t.check.corrected = s.check.corrected ∧
      t.attention.isPending .falt = true ∧
      (∀ k, item = .stream k → t.stream k = none ∧ t.attention.isPending .strm = true ∧
        (vget t.attention.strm k).fault = true) ∧
      (∀ k, item ≠ .stream k → t.stream k = s.stream k) ∧
      (∀ f, vget t.check.furnaceMarks f = (vget s.check.furnaceMarks f || decide (item = .config (.furnace f)))) ∧
      (∀ l, vget t.check.lineMarks l = (vget s.check.lineMarks l || decide (item = .config (.line l)))) ∧
      (∀ f, item ≠ .config (.furnace f) → t.furnaceCfg f = s.furnaceCfg f) ∧
      (∀ l, item ≠ .config (.line l) → t.lineCfg l = s.lineCfg l ∧ t.job l = s.job l) ∧
      (∀ f, item ≠ .live (.furnace f) → t.fLive f = s.fLive f) ∧
      (∀ l, item ≠ .live (.line l) → t.lLive l = s.lLive l) ∧
      (∀ a, item = .live a → s.run = .run ∨ s.run = .halt → (t.liveBase a).flags.suspect = true) ∧
      (∀ f, item = .live (.furnace f) → s.run = .idle ∨ s.run = .pass → t.fLive f = {}) ∧
      (∀ l, item = .live (.line l) → s.run = .idle ∨ s.run = .pass → t.lLive l = {}) ∧
      (∀ g c, item = .closing (.furnace g) → (s.group g).closing = some c →
        ∃ d, t.group g = { s.group g with closing := some d } ∧ d.furnace.base.flags.suspect = true ∧
          d = { c with furnace := d.furnace }) ∧
      (∀ l g c, item = .closing (.line l) → (s.group g).closing = some c →
        ∃ ls, t.group g = { s.group g with closing := some { c with lines := ls } } ∧ ls.length = c.lines.length ∧
          ∀ (i : Nat) (x : ClosingLine), c.lines[i]? = some x →
            ∃ y, ls[i]? = some y ∧ y.line = x.line ∧ y.limits = x.limits ∧
            (x.line = l → y.live.base.flags.suspect = true) ∧ (x.line ≠ l → y = x)) ∧
      (∀ g, (s.group g).closing = none ∨ (∀ l, item ≠ .closing (.line l)) ∧ item ≠ .closing (.furnace g) →
        t.group g = s.group g) ∧
      (∀ i, item ≠ .queue i → t.records[i]? = s.records[i]?) ∧
      (∀ i, item = .queue i → ∀ h : i < s.records.length, ∃ r, t.records[i]? = some r ∧
        r.flags.suspect = true ∧ r.group = s.records[i].group ∧ r.period = s.records[i].period ∧
        r.pieces = s.records[i].pieces) ∧
      t.records.length = s.records.length ∧ t.run = s.run ∧ t.clock = s.clock ∧ t.plant = s.plant ∧
      t.field = s.field)

/-! ### Links -/

/-- R156, R157: a port that is not UP sends its offer burst when 1 ms has passed since the last; its first valid
signal takes it from DOWN to OFFER with the rate fault clear; an offer burst is judged at once, B before A among the
rates that both sides name, the rate fault where there is none; an idle held for 5 ms at an accepted rate takes it UP
there, and another, or both rates in one window, sets the rate fault. -/
def Obligations.LinkComesUp : Prop :=
  ∀ (p : Side) (s : State),
    let q := s.port p
    let up (r : Rate) : Port := { q with link := .up, rate := some r, rateFault := false, line := .idle r }
    let judged (rates : RateSet) : Port :=
      if q.accepted.b && rates.b then up .b
      else if q.accepted.a && rates.a then up .a
      else { q with link := .offer, rateFault := true }
    (q.link ≠ .up → q.burstAt ≤ s.clock.elapsed → exec (.offerBurstSend p) s = .next (settle (s.setPort p
      { q with line := .burst q.accepted, burstAt := s.clock.elapsed + 1 }))) ∧
    (q.link = .down → ∀ r, exec (.linkSignalSeen p (.idle r)) s =
      .next (settle (s.setPort p { q with link := .offer, rateFault := false }))) ∧
    (∀ rates : RateSet, (rates.a || rates.b) = true →
      (q.link = .down → exec (.linkSignalSeen p (.burst rates)) s = .next (settle (s.setPort p (judged rates)))) ∧
      (q.link = .offer → exec (.offerBurstReceived p rates) s = .next (settle (s.setPort p (judged rates))))) ∧
    (q.link = .offer →
      (∀ r, exec (.idleDetection p (.held r)) s = .next (settle (s.setPort p
        (if q.accepted.has r then up r else { q with rateFault := true })))) ∧
      exec (.idleDetection p .both) s = .next (settle (s.setPort p { q with rateFault := true })))

/-- R158: at a loss of signal in OFFER or UP, and at an offer burst received in UP, the port loses its transmission and
reception, its local queue with the reservations, its forwarding buffer and its rate; a frame that the other port was
sending from that buffer ends with an abort mark and is counted aborted; the other port's buffer is emptied. The port
goes to DOWN, or to OFFER with the burst judged. R170 to R172: where the plant port's local queue then has a free slot,
no command is in execution and one waits, the oldest waiting one is taken at once: it leaves the queue, a slot is
reserved, and it is worked and in execution with its answer fixed, due within 2 ms (log 3). Nothing else changes. -/
def Obligations.LinkIsLostOrRestarts : Prop :=
  ∀ (p : Side) (s : State),
    let q := s.port p
    let o := s.port p.other
    let cut := decide (o.tx = some .forwarded)
    let lost : State := s.setPort p.other { o with
      buffer := [], rx := o.rx.map fun _ => false, tx := if cut then none else o.tx
      line := if cut then .abort else o.line }
    let empty : Port := { q with
      link := .down, tx := none, rx := none, localQueue := [], reserved := 0, buffer := [], rate := none
      line := .silent, aborted := if cut then min 4294967295 (q.aborted + 1) else q.aborted }
    let next (u : State) : State := match u.commands with
      | [] => u
      | c :: rest =>
        if u.executing = none ∧ u.plant.localQueue.length + u.plant.reserved < 6 then
          let r := runCommand c
            { u with commands := rest, plant := { u.plant with reserved := u.plant.reserved + 1 } }
          { r.2 with executing := some { command := c, reply := r.1, due := s.clock.elapsed + 2 } }
        else u
    (q.link ≠ .down → exec (.linkSignalLoss p) s = .next (settle (next (lost.setPort p empty)))) ∧
    (q.link = .up → ∀ rates : RateSet, (rates.a || rates.b) = true →
      exec (.partnerRestart p rates) s = .next (settle (next (lost.setPort p
        (if q.accepted.b && rates.b then
          { empty with link := .up, rate := some .b, rateFault := false, line := .idle .b }
         else if q.accepted.a && rates.a then
          { empty with link := .up, rate := some .a, rateFault := false, line := .idle .a }
         else { empty with link := .offer, rateFault := true })))))

/-- R166, R167: lkcf loads the port's accepted rates and start threshold; a port UP at a rate the set does not hold
loses what R158 takes and enters OFFER. lkst answers the port's state with 0 to 2048 bytes held, all of the buffer's
while the other port sends none of it (log 8 otherwise), and clears the three counts on demand. Arguments that are
none are BADARG. The codes and widths of lkst's fields are the model's where R191 names none (log 12); the plant port's
reserved count holds its own answer's slot (log 37); the thresholds kept in `past` are for log 9. -/
def Obligations.LinkIsConfiguredAndRead : Prop :=
  ∀ (src tag : Byte) (p : Side) (b x y : Byte) (s : State), s.free →
    let code : Byte := if p = .field then 0#8 else 1#8
    let rs : RateSet := ⟨x.getLsbD 0, x.getLsbD 1⟩
    let q := s.reserveSlot.port p
    let o := s.port p.other
    let cut := decide (o.tx = some .forwarded)
    let keeps := (s.port p).link ≠ .up ∨ ∀ r, (s.port p).rate = some r → rs.has r = true
    (1 < b.toNat ∨ x = 0#8 ∨ 3 < x.toNat ∨ 3 < y.toNat → exec (.lkcf src tag b x y) s =
      .next (s.taken ⟨src, 0x70#8, tag, [b, x, y]⟩ ⟨.badarg, []⟩ s.reserveSlot)) ∧
    (∀ th : Threshold, 1 ≤ x.toNat → x.toNat ≤ 3 → th.code = y.toNat →
      (keeps → exec (.lkcf src tag code x y) s = .next (s.taken ⟨src, 0x70#8, tag, [code, x, y]⟩ ⟨.done, []⟩
        (s.reserveSlot.setPort p { q with accepted := rs, threshold := th, past := q.threshold :: q.past }))) ∧
      (¬keeps → exec (.lkcf src tag code x y) s = .next (s.taken ⟨src, 0x70#8, tag, [code, x, y]⟩ ⟨.done, []⟩
        ((s.reserveSlot.setPort p.other { s.reserveSlot.port p.other with
            buffer := [], rx := o.rx.map fun _ => false, tx := if cut then none else o.tx
            line := if cut then .abort else o.line }).setPort p { q with
          accepted := rs, threshold := th, past := q.threshold :: q.past, link := .offer, tx := none, rx := none
          localQueue := [], reserved := 0, buffer := [], rate := none, line := .silent
          aborted := if cut then min 4294967295 (q.aborted + 1) else q.aborted })))) ∧
    (1 < b.toNat ∨ 1 < y.toNat → exec (.lkst src tag b y) s =
      .next (s.taken ⟨src, 0x71#8, tag, [b, y]⟩ ⟨.badarg, []⟩ s.reserveSlot)) ∧
    (y.toNat ≤ 1 → ∃ n, n ≤ 2048 ∧ (cut = false → n = min 2048 q.listed) ∧
      exec (.lkst src tag code y) s = .next (s.taken ⟨src, 0x71#8, tag, [code, y]⟩
        ⟨.done, be 1 q.link.code ++ optBytes (fun r : Rate => be 1 (Rate.code r)) q.rate ++ flagByte q.rateFault ++
          be 1 (RateSet.mask q.accepted) ++ be 1 q.threshold.code ++ be 2 n ++ be 1 q.localQueue.length ++
          (if p = .plant then be 1 q.reserved else []) ++ be 4 q.forwarded ++ be 4 q.aborted ++ be 4 q.badCheck⟩
        (let e : State := { s.reserveSlot with fresh := if cut then s.fresh + 1 else s.fresh }
         if y = 1#8 then e.setPort p { q with forwarded := 0, aborted := 0, badCheck := 0 } else e)))

/-- R161, R163, R164: at a gap of an UP port the ready head of the feeding buffer goes first where that buffer holds a
complete frame or more than 1024 bytes, else the head of the local queue, else the ready head; with neither the port
sends idle. A transmitter that sends idle starts the same frame at the event that makes one ready, and no other starts
at an event of another block (log 10). Under a byte threshold a frame in reception that has reached it begins to leave;
that it is told by the row's operand, with the link and threshold its reception began with, is log 9's choice. R170 to
R172: where TRANSMIT_START has freed a slot of the plant port's local queue, or one is free, no command is in execution
and one waits, the oldest waiting one is then taken, worked and in execution (log 3). Nothing else changes. -/
def Obligations.TransmitterChooses : Prop :=
  ∀ (p : Side) (s : State), (s.port p).link = .up → (s.port p).tx = none →
    let q := s.port p
    let o := s.port p.other
    let next (u : State) : State := match u.commands with
      | [] => u
      | c :: rest =>
        if u.executing = none ∧ u.plant.localQueue.length + u.plant.reserved < 6 then
          let r := runCommand c
            { u with commands := rest, plant := { u.plant with reserved := u.plant.reserved + 1 } }
          { r.2 with executing := some { command := c, reply := r.1, due := s.clock.elapsed + 2 } }
        else u
    let first := (∃ e ∈ o.buffer, e.whole = true) ∨ 1024 < o.listed
    let ready (e : Stored) : Prop :=
      (e.threshold = .whole ∧ e.whole = true ∧ e.good = true) ∨
      (e.threshold ≠ .whole ∧ (e.whole = true ∨
        (match e.threshold with
          | .b16 => 16
          | .b64 => 64
          | _ => 256) ≤ e.bytes.length))
    let starts (x : Port) : Prop :=
      (∀ begun, o.listed ≤ 2048 →
        exec (.transmitStart p ⟨[], begun⟩) s = .next (settle (next (s.setPort p x)))) ∧
      ((∃ r, q.line = .idle r) → s.startIdle p = s.setPort p x)
    (∀ e rest, o.buffer = e :: rest → ready e → first ∨ q.localQueue = [] →
      starts { q with tx := some .forwarded, line := .frame e.bytes }) ∧
    (∀ f rest, q.localQueue = f :: rest →
      (¬first ∨ o.buffer = [] ∨ ∃ e more, o.buffer = e :: more ∧ ¬ready e) →
      starts { q with localQueue := rest, tx := some (.own f.bytes), line := .frame f.bytes }) ∧
    (q.localQueue = [] → (o.buffer = [] ∨ ∃ e more, o.buffer = e :: more ∧ ¬ready e) → s.startIdle p = s ∧
      ∀ begun r, o.listed ≤ 2048 → q.rate = some r →
        exec (.transmitStart p ⟨[], begun⟩) s = .next (settle (next (s.setPort p { q with line := .idle r })))) ∧
    ((∀ r, q.line ≠ .idle r) → s.startIdle p = s) ∧
    ∀ (d b k : Byte) (more : List Byte) (begun : Begun) (th : Threshold), o.link = .up → o.rx = none →
      o.buffer = [] → q.localQueue = [] → ¬(k = 5#8 ∧ d = s.address) → more.length ≤ 251 → begun.linked = true →
      (begun.reloads = 0 ∧ th = o.threshold ∨ ∃ n, begun.reloads = n + 1 ∧ o.past[n]? = some th) →
      let e : Stored := { bytes := d :: b :: k :: more, whole := false, good := false, threshold := th }
      ready e → exec (.transmitStart p ⟨d :: b :: k :: more, begun⟩) s = .next (settle (next ((s.setPort p.other
        { o with rx := some true, buffer := [e] }).setPort p { q with
          tx := some .forwarded, line := .frame e.bytes })))

/-- R161 to R163: a sent frame of the port's own ends its transmission; a forwarded one that has ended leaves the other
port's buffer, counted forwarded there if it was accepted. At an underrun, and at an overrun, the frame in reception
leaves the buffer, is counted aborted, and its rest is not stored; where it was being sent, the sender ends it with an
abort mark. That the overrun is judged by the bytes the buffer lists, those already sent of the head among them, and
that its row's operand tells the frame in reception, are log 9's choices; that a frame which its sender ended with an
abort mark ends on the line without it, as every whole frame does here, is the model's choice (log 42). -/
def Obligations.TransmissionEnds : Prop :=
  ∀ (p : Side) (s : State),
    let q := s.port p
    let o := s.port p.other
    (∀ bytes, q.tx = some (.own bytes) → exec (.frameSent p) s =
      .next (settle (s.setPort p { q with tx := none, line := .frame bytes }))) ∧
    (∀ e rest, q.tx = some .forwarded → o.buffer = e :: rest → e.whole = true → exec (.frameSent p) s =
      .next (settle ((s.setPort p { q with tx := none, line := .frame e.bytes }).setPort p.other { o with
        buffer := rest, forwarded := if e.good then min 4294967295 (o.forwarded + 1) else o.forwarded }))) ∧
    (∀ e rest, o.tx = some .forwarded → q.buffer = e :: rest → e.whole = false → exec (.forwardUnderrun p) s =
      .next (settle ((s.setPort p.other { o with tx := none, line := .abort }).setPort p { q with
        buffer := rest, rx := q.rx.map fun _ => false, aborted := min 4294967295 (q.aborted + 1) }))) ∧
    ∀ (d b k : Byte) (more : List Byte) (begun : Begun) (kept : List Stored), q.link = .up →
      (q.rx = none ∧ q.buffer = kept ∧ o.link = .up ∧ begun.linked = true ∧ ¬(k = 5#8 ∧ d = s.address)) ∨
        (q.rx = some true ∧ ∃ e, q.buffer = kept ++ [e]) →
      2048 < (kept.map fun e => e.bytes.length).sum + (more.length + 3) →
      exec (.forwardOverrun p ⟨d :: b :: k :: more, begun⟩) s = .next (settle
        ((if o.tx = some .forwarded ∧ kept = [] then s.setPort p.other { o with tx := none, line := .abort }
          else s).setPort p { q with
            buffer := kept, rx := some false, aborted := min 4294967295 (q.aborted + 1) }))

/-- R159 to R162, R166: an accepted frame that no row has told of before, and that the tap hands to no block or that is
a smpl or helo on the field port or a mark on either port, is stored whole, under the start threshold its reception
began with, where the other port has been UP since then and it fits; it is lost without a count where the other port was
not, and counted aborted where it does not fit (the room beside a head that is being sent is log 8's free value). One
whose storing has begun is completed; the rest of one that is not stored is not. A frame that no block takes does
nothing else; of the others this says what the port's reception, buffer and counts become, here where the tap takes them
too. A cmnd to the part on the field port is discarded. A bad frame is counted and what is stored of it removed, unless
it is being sent: then it is sent to its end as received. That the start of the reception is told by an operand is log
9's choice. -/
def Obligations.FramesAreForwardedOrCounted : Prop :=
  ∀ (p : Side) (dest src kind : Byte) (payload : List Byte) (begun : Begun) (s : State), (s.port p).link = .up →
    let q := s.port p
    let o := s.port p.other
    let f : Frame := { dest := dest, src := src, kind := kind, payload := payload }
    let tapped := (p = .field ∧ (kind = 1#8 ∨ kind = 2#8)) ∨ (kind = 4#8 ∧ (dest = s.address ∨ dest = 255#8)) ∨
      (kind = 5#8 ∧ dest = s.address)
    let linked := o.link = .up ∧ begun.linked = true
    let handed (c : Instr) : Prop :=
      (p = .field ∧ kind = 1#8 ∧ c = .smplReceived dest src ⟨payload, begun⟩) ∨
      (p = .field ∧ kind = 2#8 ∧ c = .heloReceived dest src ⟨payload, begun⟩) ∨
      (kind = 4#8 ∧ c = .markReceived p dest src ⟨payload, begun⟩)
    let becomes (u : State) : Prop :=
      (¬tapped → exec (.frameForwardOnly p dest src kind ⟨payload, begun⟩) s = .next (settle u)) ∧
      ∀ c, handed c → ∃ t, exec c s = .next t ∧ t.fresh = u.fresh ∧ (t.port p).rx = (u.port p).rx ∧
        (t.port p).buffer = (u.port p).buffer ∧ (t.port p).aborted = (u.port p).aborted ∧
        (t.port p).forwarded = (u.port p).forwarded ∧ (t.port p).badCheck = (u.port p).badCheck
    (payload.length ≤ 248 → q.rx = none →
      (¬linked → becomes s) ∧
      ∀ th, linked → (begun.reloads = 0 ∧ th = q.threshold ∨ ∃ n, begun.reloads = n + 1 ∧ q.past[n]? = some th) →
        let stored : Port := { q with
          buffer := q.buffer ++ [{ bytes := f.bytes, whole := true, good := true, threshold := th }] }
        let counted : Port := { q with aborted := min 4294967295 (q.aborted + 1) }
        (q.listed + f.bytes.length ≤ 2048 → becomes (s.setPort p stored)) ∧
        (2048 < q.listed + f.bytes.length → o.tx ≠ some .forwarded → becomes (s.setPort p counted)) ∧
        ∀ e rest, 2048 < q.listed + f.bytes.length → o.tx = some .forwarded → q.buffer = e :: rest →
          ∃ n, n ≤ e.bytes.length ∧ becomes (({ s with fresh := s.fresh + 1 } : State).setPort p
            (if q.listed + f.bytes.length - n ≤ 2048 then stored else counted))) ∧
    (payload.length ≤ 248 →
      (q.rx = some false → becomes (s.setPort p { q with rx := none })) ∧
      ∀ kept e, q.rx = some true → q.buffer = kept ++ [e] →
        (kept.map fun x => x.bytes.length).sum + f.bytes.length ≤ 2048 →
        becomes (s.setPort p { q with
          rx := none, buffer := kept ++ [{ e with bytes := f.bytes, whole := true, good := true }] })) ∧
    (p = .field → payload.length ≤ 248 → q.rx = none →
      exec (.cmndReceived .field s.address src ⟨payload, begun⟩) s = .next (settle s)) ∧
    ∀ (bytes : List Byte) (aborted : Bool), aborted = true ∨ acceptBytes bytes = none →
      let counted : Port := { q with rx := none, badCheck := min 4294967295 (q.badCheck + 1) }
      (q.rx ≠ some true → exec (.badFrame p bytes aborted) s = .next (settle (s.setPort p counted))) ∧
      (∀ kept e, q.rx = some true → q.buffer = kept ++ [e] →
        (o.tx ≠ some .forwarded ∨ kept ≠ [] → exec (.badFrame p bytes aborted) s =
          .next (settle (s.setPort p { counted with buffer := kept }))) ∧
        (o.tx = some .forwarded → kept = [] → bytes.length ≤ 2048 → exec (.badFrame p bytes aborted) s =
          .next (settle (s.setPort p { counted with
            buffer := [{ e with bytes := bytes, whole := true, good := false }] }))))
end

