-- ==== Sys2Proof/Laws/State.lean ====
section
/-! SUPPORT. The laws of vectors and of the updates of State: one lemma for each field and update, and what each part
reads as after an update. -/

namespace Sys2Proof

theorem vget_vset {α : Type} {n : Nat} (v : Vector α n) (i j : Fin n) (x : α) :
    vget (vset v i x) j = if i = j then x else vget v j := by
  simp only [vget, vset, Vector.getElem_set, Fin.ext_iff]

@[simp] theorem vget_vset_same {α : Type} {n : Nat} (v : Vector α n) (i : Fin n) (x : α) :
    vget (vset v i x) i = x := by simp [vget_vset]

theorem vget_vset_other {α : Type} {n : Nat} (v : Vector α n) {i j : Fin n} (h : i ≠ j) (x : α) :
    vget (vset v i x) j = vget v j := by simp [vget_vset, h]

@[simp] theorem vget_vgen {α : Type} {n : Nat} (f : Fin n → α) (i : Fin n) : vget (vgen f) i = f i := by
  simp [vget, vgen]

@[simp] theorem vget_replicate {α : Type} {n : Nat} (x : α) (i : Fin n) : vget (Vector.replicate n x) i = x := by
  simp [vget]

@[simp] theorem vget_map {α β : Type} {n : Nat} (f : α → β) (v : Vector α n) (i : Fin n) :
    vget (v.map f) i = f (vget v i) := by
  simp [vget]

/-- Two vectors with the same entries are equal. -/
theorem vec_ext {α : Type} {n : Nat} {v w : Vector α n} (h : ∀ i, vget v i = vget w i) : v = w :=
  Vector.ext fun i hi => h ⟨i, hi⟩

@[simp] theorem vset_vget {α : Type} {n : Nat} (v : Vector α n) (i : Fin n) : vset v i (vget v i) = v :=
  vec_ext fun j => by
    rw [vget_vset]
    split
    · next h => rw [h]
    · rfl

namespace Machine

variable (s : State)

@[simp] theorem State.setFurnaceCfg_pending (f : Fin 4) (x : FurnaceConfig) : (s.setFurnaceCfg f x).pending = s.pending := rfl
@[simp] theorem State.setFurnaceCfg_fresh (f : Fin 4) (x : FurnaceConfig) : (s.setFurnaceCfg f x).fresh = s.fresh := rfl
@[simp] theorem State.setFurnaceCfg_latent (f : Fin 4) (x : FurnaceConfig) : (s.setFurnaceCfg f x).latent = s.latent := rfl
@[simp] theorem State.setFurnaceCfg_pins (f : Fin 4) (x : FurnaceConfig) : (s.setFurnaceCfg f x).pins = s.pins := rfl
@[simp] theorem State.setFurnaceCfg_address (f : Fin 4) (x : FurnaceConfig) : (s.setFurnaceCfg f x).address = s.address := rfl
@[simp] theorem State.setFurnaceCfg_pthru (f : Fin 4) (x : FurnaceConfig) : (s.setFurnaceCfg f x).pthru = s.pthru := rfl
@[simp] theorem State.setFurnaceCfg_run (f : Fin 4) (x : FurnaceConfig) : (s.setFurnaceCfg f x).run = s.run := rfl
@[simp] theorem State.setFurnaceCfg_commands (f : Fin 4) (x : FurnaceConfig) : (s.setFurnaceCfg f x).commands = s.commands := rfl
@[simp] theorem State.setFurnaceCfg_executing (f : Fin 4) (x : FurnaceConfig) : (s.setFurnaceCfg f x).executing = s.executing := rfl
@[simp] theorem State.setFurnaceCfg_clock (f : Fin 4) (x : FurnaceConfig) : (s.setFurnaceCfg f x).clock = s.clock := rfl
@[simp] theorem State.setFurnaceCfg_lines (f : Fin 4) (x : FurnaceConfig) : (s.setFurnaceCfg f x).lines = s.lines := rfl
@[simp] theorem State.setFurnaceCfg_jobs (f : Fin 4) (x : FurnaceConfig) : (s.setFurnaceCfg f x).jobs = s.jobs := rfl
@[simp] theorem State.setFurnaceCfg_furnaceLive (f : Fin 4) (x : FurnaceConfig) : (s.setFurnaceCfg f x).furnaceLive = s.furnaceLive := rfl
@[simp] theorem State.setFurnaceCfg_lineLive (f : Fin 4) (x : FurnaceConfig) : (s.setFurnaceCfg f x).lineLive = s.lineLive := rfl
@[simp] theorem State.setFurnaceCfg_groups (f : Fin 4) (x : FurnaceConfig) : (s.setFurnaceCfg f x).groups = s.groups := rfl
@[simp] theorem State.setFurnaceCfg_streams (f : Fin 4) (x : FurnaceConfig) : (s.setFurnaceCfg f x).streams = s.streams := rfl
@[simp] theorem State.setFurnaceCfg_heard (f : Fin 4) (x : FurnaceConfig) : (s.setFurnaceCfg f x).heard = s.heard := rfl
@[simp] theorem State.setFurnaceCfg_lineInputs (f : Fin 4) (x : FurnaceConfig) : (s.setFurnaceCfg f x).lineInputs = s.lineInputs := rfl
@[simp] theorem State.setFurnaceCfg_furnaceInputs (f : Fin 4) (x : FurnaceConfig) : (s.setFurnaceCfg f x).furnaceInputs = s.furnaceInputs := rfl
@[simp] theorem State.setFurnaceCfg_records (f : Fin 4) (x : FurnaceConfig) : (s.setFurnaceCfg f x).records = s.records := rfl
@[simp] theorem State.setFurnaceCfg_lost (f : Fin 4) (x : FurnaceConfig) : (s.setFurnaceCfg f x).lost = s.lost := rfl
@[simp] theorem State.setFurnaceCfg_furnaceTotals (f : Fin 4) (x : FurnaceConfig) : (s.setFurnaceCfg f x).furnaceTotals = s.furnaceTotals := rfl
@[simp] theorem State.setFurnaceCfg_lineTotals (f : Fin 4) (x : FurnaceConfig) : (s.setFurnaceCfg f x).lineTotals = s.lineTotals := rfl
@[simp] theorem State.setFurnaceCfg_snapshot (f : Fin 4) (x : FurnaceConfig) : (s.setFurnaceCfg f x).snapshot = s.snapshot := rfl
@[simp] theorem State.setFurnaceCfg_check (f : Fin 4) (x : FurnaceConfig) : (s.setFurnaceCfg f x).check = s.check := rfl
@[simp] theorem State.setFurnaceCfg_attention (f : Fin 4) (x : FurnaceConfig) : (s.setFurnaceCfg f x).attention = s.attention := rfl
@[simp] theorem State.setFurnaceCfg_field (f : Fin 4) (x : FurnaceConfig) : (s.setFurnaceCfg f x).field = s.field := rfl
@[simp] theorem State.setFurnaceCfg_plant (f : Fin 4) (x : FurnaceConfig) : (s.setFurnaceCfg f x).plant = s.plant := rfl

@[simp] theorem State.setLineCfg_pending (l : Fin 8) (x : LineConfig) : (s.setLineCfg l x).pending = s.pending := rfl
@[simp] theorem State.setLineCfg_fresh (l : Fin 8) (x : LineConfig) : (s.setLineCfg l x).fresh = s.fresh := rfl
@[simp] theorem State.setLineCfg_latent (l : Fin 8) (x : LineConfig) : (s.setLineCfg l x).latent = s.latent := rfl
@[simp] theorem State.setLineCfg_pins (l : Fin 8) (x : LineConfig) : (s.setLineCfg l x).pins = s.pins := rfl
@[simp] theorem State.setLineCfg_address (l : Fin 8) (x : LineConfig) : (s.setLineCfg l x).address = s.address := rfl
@[simp] theorem State.setLineCfg_pthru (l : Fin 8) (x : LineConfig) : (s.setLineCfg l x).pthru = s.pthru := rfl
@[simp] theorem State.setLineCfg_run (l : Fin 8) (x : LineConfig) : (s.setLineCfg l x).run = s.run := rfl
@[simp] theorem State.setLineCfg_commands (l : Fin 8) (x : LineConfig) : (s.setLineCfg l x).commands = s.commands := rfl
@[simp] theorem State.setLineCfg_executing (l : Fin 8) (x : LineConfig) : (s.setLineCfg l x).executing = s.executing := rfl
@[simp] theorem State.setLineCfg_clock (l : Fin 8) (x : LineConfig) : (s.setLineCfg l x).clock = s.clock := rfl
@[simp] theorem State.setLineCfg_furnaces (l : Fin 8) (x : LineConfig) : (s.setLineCfg l x).furnaces = s.furnaces := rfl
@[simp] theorem State.setLineCfg_jobs (l : Fin 8) (x : LineConfig) : (s.setLineCfg l x).jobs = s.jobs := rfl
@[simp] theorem State.setLineCfg_furnaceLive (l : Fin 8) (x : LineConfig) : (s.setLineCfg l x).furnaceLive = s.furnaceLive := rfl
@[simp] theorem State.setLineCfg_lineLive (l : Fin 8) (x : LineConfig) : (s.setLineCfg l x).lineLive = s.lineLive := rfl
@[simp] theorem State.setLineCfg_groups (l : Fin 8) (x : LineConfig) : (s.setLineCfg l x).groups = s.groups := rfl
@[simp] theorem State.setLineCfg_streams (l : Fin 8) (x : LineConfig) : (s.setLineCfg l x).streams = s.streams := rfl
@[simp] theorem State.setLineCfg_heard (l : Fin 8) (x : LineConfig) : (s.setLineCfg l x).heard = s.heard := rfl
@[simp] theorem State.setLineCfg_lineInputs (l : Fin 8) (x : LineConfig) : (s.setLineCfg l x).lineInputs = s.lineInputs := rfl
@[simp] theorem State.setLineCfg_furnaceInputs (l : Fin 8) (x : LineConfig) : (s.setLineCfg l x).furnaceInputs = s.furnaceInputs := rfl
@[simp] theorem State.setLineCfg_records (l : Fin 8) (x : LineConfig) : (s.setLineCfg l x).records = s.records := rfl
@[simp] theorem State.setLineCfg_lost (l : Fin 8) (x : LineConfig) : (s.setLineCfg l x).lost = s.lost := rfl
@[simp] theorem State.setLineCfg_furnaceTotals (l : Fin 8) (x : LineConfig) : (s.setLineCfg l x).furnaceTotals = s.furnaceTotals := rfl
@[simp] theorem State.setLineCfg_lineTotals (l : Fin 8) (x : LineConfig) : (s.setLineCfg l x).lineTotals = s.lineTotals := rfl
@[simp] theorem State.setLineCfg_snapshot (l : Fin 8) (x : LineConfig) : (s.setLineCfg l x).snapshot = s.snapshot := rfl
@[simp] theorem State.setLineCfg_check (l : Fin 8) (x : LineConfig) : (s.setLineCfg l x).check = s.check := rfl
@[simp] theorem State.setLineCfg_attention (l : Fin 8) (x : LineConfig) : (s.setLineCfg l x).attention = s.attention := rfl
@[simp] theorem State.setLineCfg_field (l : Fin 8) (x : LineConfig) : (s.setLineCfg l x).field = s.field := rfl
@[simp] theorem State.setLineCfg_plant (l : Fin 8) (x : LineConfig) : (s.setLineCfg l x).plant = s.plant := rfl

@[simp] theorem State.setJob_pending (l : Fin 8) (x : Job) : (s.setJob l x).pending = s.pending := rfl
@[simp] theorem State.setJob_fresh (l : Fin 8) (x : Job) : (s.setJob l x).fresh = s.fresh := rfl
@[simp] theorem State.setJob_latent (l : Fin 8) (x : Job) : (s.setJob l x).latent = s.latent := rfl
@[simp] theorem State.setJob_pins (l : Fin 8) (x : Job) : (s.setJob l x).pins = s.pins := rfl
@[simp] theorem State.setJob_address (l : Fin 8) (x : Job) : (s.setJob l x).address = s.address := rfl
@[simp] theorem State.setJob_pthru (l : Fin 8) (x : Job) : (s.setJob l x).pthru = s.pthru := rfl
@[simp] theorem State.setJob_run (l : Fin 8) (x : Job) : (s.setJob l x).run = s.run := rfl
@[simp] theorem State.setJob_commands (l : Fin 8) (x : Job) : (s.setJob l x).commands = s.commands := rfl
@[simp] theorem State.setJob_executing (l : Fin 8) (x : Job) : (s.setJob l x).executing = s.executing := rfl
@[simp] theorem State.setJob_clock (l : Fin 8) (x : Job) : (s.setJob l x).clock = s.clock := rfl
@[simp] theorem State.setJob_furnaces (l : Fin 8) (x : Job) : (s.setJob l x).furnaces = s.furnaces := rfl
@[simp] theorem State.setJob_lines (l : Fin 8) (x : Job) : (s.setJob l x).lines = s.lines := rfl
@[simp] theorem State.setJob_furnaceLive (l : Fin 8) (x : Job) : (s.setJob l x).furnaceLive = s.furnaceLive := rfl
@[simp] theorem State.setJob_lineLive (l : Fin 8) (x : Job) : (s.setJob l x).lineLive = s.lineLive := rfl
@[simp] theorem State.setJob_groups (l : Fin 8) (x : Job) : (s.setJob l x).groups = s.groups := rfl
@[simp] theorem State.setJob_streams (l : Fin 8) (x : Job) : (s.setJob l x).streams = s.streams := rfl
@[simp] theorem State.setJob_heard (l : Fin 8) (x : Job) : (s.setJob l x).heard = s.heard := rfl
@[simp] theorem State.setJob_lineInputs (l : Fin 8) (x : Job) : (s.setJob l x).lineInputs = s.lineInputs := rfl
@[simp] theorem State.setJob_furnaceInputs (l : Fin 8) (x : Job) : (s.setJob l x).furnaceInputs = s.furnaceInputs := rfl
@[simp] theorem State.setJob_records (l : Fin 8) (x : Job) : (s.setJob l x).records = s.records := rfl
@[simp] theorem State.setJob_lost (l : Fin 8) (x : Job) : (s.setJob l x).lost = s.lost := rfl
@[simp] theorem State.setJob_furnaceTotals (l : Fin 8) (x : Job) : (s.setJob l x).furnaceTotals = s.furnaceTotals := rfl
@[simp] theorem State.setJob_lineTotals (l : Fin 8) (x : Job) : (s.setJob l x).lineTotals = s.lineTotals := rfl
@[simp] theorem State.setJob_snapshot (l : Fin 8) (x : Job) : (s.setJob l x).snapshot = s.snapshot := rfl
@[simp] theorem State.setJob_check (l : Fin 8) (x : Job) : (s.setJob l x).check = s.check := rfl
@[simp] theorem State.setJob_attention (l : Fin 8) (x : Job) : (s.setJob l x).attention = s.attention := rfl
@[simp] theorem State.setJob_field (l : Fin 8) (x : Job) : (s.setJob l x).field = s.field := rfl
@[simp] theorem State.setJob_plant (l : Fin 8) (x : Job) : (s.setJob l x).plant = s.plant := rfl

@[simp] theorem State.setFLive_pending (f : Fin 4) (x : FurnaceLive) : (s.setFLive f x).pending = s.pending := rfl
@[simp] theorem State.setFLive_fresh (f : Fin 4) (x : FurnaceLive) : (s.setFLive f x).fresh = s.fresh := rfl
@[simp] theorem State.setFLive_latent (f : Fin 4) (x : FurnaceLive) : (s.setFLive f x).latent = s.latent := rfl
@[simp] theorem State.setFLive_pins (f : Fin 4) (x : FurnaceLive) : (s.setFLive f x).pins = s.pins := rfl
@[simp] theorem State.setFLive_address (f : Fin 4) (x : FurnaceLive) : (s.setFLive f x).address = s.address := rfl
@[simp] theorem State.setFLive_pthru (f : Fin 4) (x : FurnaceLive) : (s.setFLive f x).pthru = s.pthru := rfl
@[simp] theorem State.setFLive_run (f : Fin 4) (x : FurnaceLive) : (s.setFLive f x).run = s.run := rfl
@[simp] theorem State.setFLive_commands (f : Fin 4) (x : FurnaceLive) : (s.setFLive f x).commands = s.commands := rfl
@[simp] theorem State.setFLive_executing (f : Fin 4) (x : FurnaceLive) : (s.setFLive f x).executing = s.executing := rfl
@[simp] theorem State.setFLive_clock (f : Fin 4) (x : FurnaceLive) : (s.setFLive f x).clock = s.clock := rfl
@[simp] theorem State.setFLive_furnaces (f : Fin 4) (x : FurnaceLive) : (s.setFLive f x).furnaces = s.furnaces := rfl
@[simp] theorem State.setFLive_lines (f : Fin 4) (x : FurnaceLive) : (s.setFLive f x).lines = s.lines := rfl
@[simp] theorem State.setFLive_jobs (f : Fin 4) (x : FurnaceLive) : (s.setFLive f x).jobs = s.jobs := rfl
@[simp] theorem State.setFLive_lineLive (f : Fin 4) (x : FurnaceLive) : (s.setFLive f x).lineLive = s.lineLive := rfl
@[simp] theorem State.setFLive_groups (f : Fin 4) (x : FurnaceLive) : (s.setFLive f x).groups = s.groups := rfl
@[simp] theorem State.setFLive_streams (f : Fin 4) (x : FurnaceLive) : (s.setFLive f x).streams = s.streams := rfl
@[simp] theorem State.setFLive_heard (f : Fin 4) (x : FurnaceLive) : (s.setFLive f x).heard = s.heard := rfl
@[simp] theorem State.setFLive_lineInputs (f : Fin 4) (x : FurnaceLive) : (s.setFLive f x).lineInputs = s.lineInputs := rfl
@[simp] theorem State.setFLive_furnaceInputs (f : Fin 4) (x : FurnaceLive) : (s.setFLive f x).furnaceInputs = s.furnaceInputs := rfl
@[simp] theorem State.setFLive_records (f : Fin 4) (x : FurnaceLive) : (s.setFLive f x).records = s.records := rfl
@[simp] theorem State.setFLive_lost (f : Fin 4) (x : FurnaceLive) : (s.setFLive f x).lost = s.lost := rfl
@[simp] theorem State.setFLive_furnaceTotals (f : Fin 4) (x : FurnaceLive) : (s.setFLive f x).furnaceTotals = s.furnaceTotals := rfl
@[simp] theorem State.setFLive_lineTotals (f : Fin 4) (x : FurnaceLive) : (s.setFLive f x).lineTotals = s.lineTotals := rfl
@[simp] theorem State.setFLive_snapshot (f : Fin 4) (x : FurnaceLive) : (s.setFLive f x).snapshot = s.snapshot := rfl
@[simp] theorem State.setFLive_check (f : Fin 4) (x : FurnaceLive) : (s.setFLive f x).check = s.check := rfl
@[simp] theorem State.setFLive_attention (f : Fin 4) (x : FurnaceLive) : (s.setFLive f x).attention = s.attention := rfl
@[simp] theorem State.setFLive_field (f : Fin 4) (x : FurnaceLive) : (s.setFLive f x).field = s.field := rfl
@[simp] theorem State.setFLive_plant (f : Fin 4) (x : FurnaceLive) : (s.setFLive f x).plant = s.plant := rfl

@[simp] theorem State.setLLive_pending (l : Fin 8) (x : LineLive) : (s.setLLive l x).pending = s.pending := rfl
@[simp] theorem State.setLLive_fresh (l : Fin 8) (x : LineLive) : (s.setLLive l x).fresh = s.fresh := rfl
@[simp] theorem State.setLLive_latent (l : Fin 8) (x : LineLive) : (s.setLLive l x).latent = s.latent := rfl
@[simp] theorem State.setLLive_pins (l : Fin 8) (x : LineLive) : (s.setLLive l x).pins = s.pins := rfl
@[simp] theorem State.setLLive_address (l : Fin 8) (x : LineLive) : (s.setLLive l x).address = s.address := rfl
@[simp] theorem State.setLLive_pthru (l : Fin 8) (x : LineLive) : (s.setLLive l x).pthru = s.pthru := rfl
@[simp] theorem State.setLLive_run (l : Fin 8) (x : LineLive) : (s.setLLive l x).run = s.run := rfl
@[simp] theorem State.setLLive_commands (l : Fin 8) (x : LineLive) : (s.setLLive l x).commands = s.commands := rfl
@[simp] theorem State.setLLive_executing (l : Fin 8) (x : LineLive) : (s.setLLive l x).executing = s.executing := rfl
@[simp] theorem State.setLLive_clock (l : Fin 8) (x : LineLive) : (s.setLLive l x).clock = s.clock := rfl
@[simp] theorem State.setLLive_furnaces (l : Fin 8) (x : LineLive) : (s.setLLive l x).furnaces = s.furnaces := rfl
@[simp] theorem State.setLLive_lines (l : Fin 8) (x : LineLive) : (s.setLLive l x).lines = s.lines := rfl
@[simp] theorem State.setLLive_jobs (l : Fin 8) (x : LineLive) : (s.setLLive l x).jobs = s.jobs := rfl
@[simp] theorem State.setLLive_furnaceLive (l : Fin 8) (x : LineLive) : (s.setLLive l x).furnaceLive = s.furnaceLive := rfl
@[simp] theorem State.setLLive_groups (l : Fin 8) (x : LineLive) : (s.setLLive l x).groups = s.groups := rfl
@[simp] theorem State.setLLive_streams (l : Fin 8) (x : LineLive) : (s.setLLive l x).streams = s.streams := rfl
@[simp] theorem State.setLLive_heard (l : Fin 8) (x : LineLive) : (s.setLLive l x).heard = s.heard := rfl
@[simp] theorem State.setLLive_lineInputs (l : Fin 8) (x : LineLive) : (s.setLLive l x).lineInputs = s.lineInputs := rfl
@[simp] theorem State.setLLive_furnaceInputs (l : Fin 8) (x : LineLive) : (s.setLLive l x).furnaceInputs = s.furnaceInputs := rfl
@[simp] theorem State.setLLive_records (l : Fin 8) (x : LineLive) : (s.setLLive l x).records = s.records := rfl
@[simp] theorem State.setLLive_lost (l : Fin 8) (x : LineLive) : (s.setLLive l x).lost = s.lost := rfl
@[simp] theorem State.setLLive_furnaceTotals (l : Fin 8) (x : LineLive) : (s.setLLive l x).furnaceTotals = s.furnaceTotals := rfl
@[simp] theorem State.setLLive_lineTotals (l : Fin 8) (x : LineLive) : (s.setLLive l x).lineTotals = s.lineTotals := rfl
@[simp] theorem State.setLLive_snapshot (l : Fin 8) (x : LineLive) : (s.setLLive l x).snapshot = s.snapshot := rfl
@[simp] theorem State.setLLive_check (l : Fin 8) (x : LineLive) : (s.setLLive l x).check = s.check := rfl
@[simp] theorem State.setLLive_attention (l : Fin 8) (x : LineLive) : (s.setLLive l x).attention = s.attention := rfl
@[simp] theorem State.setLLive_field (l : Fin 8) (x : LineLive) : (s.setLLive l x).field = s.field := rfl
@[simp] theorem State.setLLive_plant (l : Fin 8) (x : LineLive) : (s.setLLive l x).plant = s.plant := rfl

@[simp] theorem State.setGroup_pending (g : Fin 4) (x : GroupClose) : (s.setGroup g x).pending = s.pending := rfl
@[simp] theorem State.setGroup_fresh (g : Fin 4) (x : GroupClose) : (s.setGroup g x).fresh = s.fresh := rfl
@[simp] theorem State.setGroup_latent (g : Fin 4) (x : GroupClose) : (s.setGroup g x).latent = s.latent := rfl
@[simp] theorem State.setGroup_pins (g : Fin 4) (x : GroupClose) : (s.setGroup g x).pins = s.pins := rfl
@[simp] theorem State.setGroup_address (g : Fin 4) (x : GroupClose) : (s.setGroup g x).address = s.address := rfl
@[simp] theorem State.setGroup_pthru (g : Fin 4) (x : GroupClose) : (s.setGroup g x).pthru = s.pthru := rfl
@[simp] theorem State.setGroup_run (g : Fin 4) (x : GroupClose) : (s.setGroup g x).run = s.run := rfl
@[simp] theorem State.setGroup_commands (g : Fin 4) (x : GroupClose) : (s.setGroup g x).commands = s.commands := rfl
@[simp] theorem State.setGroup_executing (g : Fin 4) (x : GroupClose) : (s.setGroup g x).executing = s.executing := rfl
@[simp] theorem State.setGroup_clock (g : Fin 4) (x : GroupClose) : (s.setGroup g x).clock = s.clock := rfl
@[simp] theorem State.setGroup_furnaces (g : Fin 4) (x : GroupClose) : (s.setGroup g x).furnaces = s.furnaces := rfl
@[simp] theorem State.setGroup_lines (g : Fin 4) (x : GroupClose) : (s.setGroup g x).lines = s.lines := rfl
@[simp] theorem State.setGroup_jobs (g : Fin 4) (x : GroupClose) : (s.setGroup g x).jobs = s.jobs := rfl
@[simp] theorem State.setGroup_furnaceLive (g : Fin 4) (x : GroupClose) : (s.setGroup g x).furnaceLive = s.furnaceLive := rfl
@[simp] theorem State.setGroup_lineLive (g : Fin 4) (x : GroupClose) : (s.setGroup g x).lineLive = s.lineLive := rfl
@[simp] theorem State.setGroup_streams (g : Fin 4) (x : GroupClose) : (s.setGroup g x).streams = s.streams := rfl
@[simp] theorem State.setGroup_heard (g : Fin 4) (x : GroupClose) : (s.setGroup g x).heard = s.heard := rfl
@[simp] theorem State.setGroup_lineInputs (g : Fin 4) (x : GroupClose) : (s.setGroup g x).lineInputs = s.lineInputs := rfl
@[simp] theorem State.setGroup_furnaceInputs (g : Fin 4) (x : GroupClose) : (s.setGroup g x).furnaceInputs = s.furnaceInputs := rfl
@[simp] theorem State.setGroup_records (g : Fin 4) (x : GroupClose) : (s.setGroup g x).records = s.records := rfl
@[simp] theorem State.setGroup_lost (g : Fin 4) (x : GroupClose) : (s.setGroup g x).lost = s.lost := rfl
@[simp] theorem State.setGroup_furnaceTotals (g : Fin 4) (x : GroupClose) : (s.setGroup g x).furnaceTotals = s.furnaceTotals := rfl
@[simp] theorem State.setGroup_lineTotals (g : Fin 4) (x : GroupClose) : (s.setGroup g x).lineTotals = s.lineTotals := rfl
@[simp] theorem State.setGroup_snapshot (g : Fin 4) (x : GroupClose) : (s.setGroup g x).snapshot = s.snapshot := rfl
@[simp] theorem State.setGroup_check (g : Fin 4) (x : GroupClose) : (s.setGroup g x).check = s.check := rfl
@[simp] theorem State.setGroup_attention (g : Fin 4) (x : GroupClose) : (s.setGroup g x).attention = s.attention := rfl
@[simp] theorem State.setGroup_field (g : Fin 4) (x : GroupClose) : (s.setGroup g x).field = s.field := rfl
@[simp] theorem State.setGroup_plant (g : Fin 4) (x : GroupClose) : (s.setGroup g x).plant = s.plant := rfl

@[simp] theorem State.setStream_pending (k : Fin 48) (x : Option Stream) : (s.setStream k x).pending = s.pending := rfl
@[simp] theorem State.setStream_fresh (k : Fin 48) (x : Option Stream) : (s.setStream k x).fresh = s.fresh := rfl
@[simp] theorem State.setStream_latent (k : Fin 48) (x : Option Stream) : (s.setStream k x).latent = s.latent := rfl
@[simp] theorem State.setStream_pins (k : Fin 48) (x : Option Stream) : (s.setStream k x).pins = s.pins := rfl
@[simp] theorem State.setStream_address (k : Fin 48) (x : Option Stream) : (s.setStream k x).address = s.address := rfl
@[simp] theorem State.setStream_pthru (k : Fin 48) (x : Option Stream) : (s.setStream k x).pthru = s.pthru := rfl
@[simp] theorem State.setStream_run (k : Fin 48) (x : Option Stream) : (s.setStream k x).run = s.run := rfl
@[simp] theorem State.setStream_commands (k : Fin 48) (x : Option Stream) : (s.setStream k x).commands = s.commands := rfl
@[simp] theorem State.setStream_executing (k : Fin 48) (x : Option Stream) : (s.setStream k x).executing = s.executing := rfl
@[simp] theorem State.setStream_clock (k : Fin 48) (x : Option Stream) : (s.setStream k x).clock = s.clock := rfl
@[simp] theorem State.setStream_furnaces (k : Fin 48) (x : Option Stream) : (s.setStream k x).furnaces = s.furnaces := rfl
@[simp] theorem State.setStream_lines (k : Fin 48) (x : Option Stream) : (s.setStream k x).lines = s.lines := rfl
@[simp] theorem State.setStream_jobs (k : Fin 48) (x : Option Stream) : (s.setStream k x).jobs = s.jobs := rfl
@[simp] theorem State.setStream_furnaceLive (k : Fin 48) (x : Option Stream) : (s.setStream k x).furnaceLive = s.furnaceLive := rfl
@[simp] theorem State.setStream_lineLive (k : Fin 48) (x : Option Stream) : (s.setStream k x).lineLive = s.lineLive := rfl
@[simp] theorem State.setStream_groups (k : Fin 48) (x : Option Stream) : (s.setStream k x).groups = s.groups := rfl
@[simp] theorem State.setStream_heard (k : Fin 48) (x : Option Stream) : (s.setStream k x).heard = s.heard := rfl
@[simp] theorem State.setStream_lineInputs (k : Fin 48) (x : Option Stream) : (s.setStream k x).lineInputs = s.lineInputs := rfl
@[simp] theorem State.setStream_furnaceInputs (k : Fin 48) (x : Option Stream) : (s.setStream k x).furnaceInputs = s.furnaceInputs := rfl
@[simp] theorem State.setStream_records (k : Fin 48) (x : Option Stream) : (s.setStream k x).records = s.records := rfl
@[simp] theorem State.setStream_lost (k : Fin 48) (x : Option Stream) : (s.setStream k x).lost = s.lost := rfl
@[simp] theorem State.setStream_furnaceTotals (k : Fin 48) (x : Option Stream) : (s.setStream k x).furnaceTotals = s.furnaceTotals := rfl
@[simp] theorem State.setStream_lineTotals (k : Fin 48) (x : Option Stream) : (s.setStream k x).lineTotals = s.lineTotals := rfl
@[simp] theorem State.setStream_snapshot (k : Fin 48) (x : Option Stream) : (s.setStream k x).snapshot = s.snapshot := rfl
@[simp] theorem State.setStream_check (k : Fin 48) (x : Option Stream) : (s.setStream k x).check = s.check := rfl
@[simp] theorem State.setStream_attention (k : Fin 48) (x : Option Stream) : (s.setStream k x).attention = s.attention := rfl
@[simp] theorem State.setStream_field (k : Fin 48) (x : Option Stream) : (s.setStream k x).field = s.field := rfl
@[simp] theorem State.setStream_plant (k : Fin 48) (x : Option Stream) : (s.setStream k x).plant = s.plant := rfl

@[simp] theorem State.setStreamLive_pending (k : Fin 48) (st : Stream) (x : StreamLive) : (s.setStreamLive k st x).pending = s.pending := rfl
@[simp] theorem State.setStreamLive_fresh (k : Fin 48) (st : Stream) (x : StreamLive) : (s.setStreamLive k st x).fresh = s.fresh := rfl
@[simp] theorem State.setStreamLive_latent (k : Fin 48) (st : Stream) (x : StreamLive) : (s.setStreamLive k st x).latent = s.latent := rfl
@[simp] theorem State.setStreamLive_pins (k : Fin 48) (st : Stream) (x : StreamLive) : (s.setStreamLive k st x).pins = s.pins := rfl
@[simp] theorem State.setStreamLive_address (k : Fin 48) (st : Stream) (x : StreamLive) : (s.setStreamLive k st x).address = s.address := rfl
@[simp] theorem State.setStreamLive_pthru (k : Fin 48) (st : Stream) (x : StreamLive) : (s.setStreamLive k st x).pthru = s.pthru := rfl
@[simp] theorem State.setStreamLive_run (k : Fin 48) (st : Stream) (x : StreamLive) : (s.setStreamLive k st x).run = s.run := rfl
@[simp] theorem State.setStreamLive_commands (k : Fin 48) (st : Stream) (x : StreamLive) : (s.setStreamLive k st x).commands = s.commands := rfl
@[simp] theorem State.setStreamLive_executing (k : Fin 48) (st : Stream) (x : StreamLive) : (s.setStreamLive k st x).executing = s.executing := rfl
@[simp] theorem State.setStreamLive_clock (k : Fin 48) (st : Stream) (x : StreamLive) : (s.setStreamLive k st x).clock = s.clock := rfl
@[simp] theorem State.setStreamLive_furnaces (k : Fin 48) (st : Stream) (x : StreamLive) : (s.setStreamLive k st x).furnaces = s.furnaces := rfl
@[simp] theorem State.setStreamLive_lines (k : Fin 48) (st : Stream) (x : StreamLive) : (s.setStreamLive k st x).lines = s.lines := rfl
@[simp] theorem State.setStreamLive_jobs (k : Fin 48) (st : Stream) (x : StreamLive) : (s.setStreamLive k st x).jobs = s.jobs := rfl
@[simp] theorem State.setStreamLive_furnaceLive (k : Fin 48) (st : Stream) (x : StreamLive) : (s.setStreamLive k st x).furnaceLive = s.furnaceLive := rfl
@[simp] theorem State.setStreamLive_lineLive (k : Fin 48) (st : Stream) (x : StreamLive) : (s.setStreamLive k st x).lineLive = s.lineLive := rfl
@[simp] theorem State.setStreamLive_groups (k : Fin 48) (st : Stream) (x : StreamLive) : (s.setStreamLive k st x).groups = s.groups := rfl
@[simp] theorem State.setStreamLive_heard (k : Fin 48) (st : Stream) (x : StreamLive) : (s.setStreamLive k st x).heard = s.heard := rfl
@[simp] theorem State.setStreamLive_lineInputs (k : Fin 48) (st : Stream) (x : StreamLive) : (s.setStreamLive k st x).lineInputs = s.lineInputs := rfl
@[simp] theorem State.setStreamLive_furnaceInputs (k : Fin 48) (st : Stream) (x : StreamLive) : (s.setStreamLive k st x).furnaceInputs = s.furnaceInputs := rfl
@[simp] theorem State.setStreamLive_records (k : Fin 48) (st : Stream) (x : StreamLive) : (s.setStreamLive k st x).records = s.records := rfl
@[simp] theorem State.setStreamLive_lost (k : Fin 48) (st : Stream) (x : StreamLive) : (s.setStreamLive k st x).lost = s.lost := rfl
@[simp] theorem State.setStreamLive_furnaceTotals (k : Fin 48) (st : Stream) (x : StreamLive) : (s.setStreamLive k st x).furnaceTotals = s.furnaceTotals := rfl
@[simp] theorem State.setStreamLive_lineTotals (k : Fin 48) (st : Stream) (x : StreamLive) : (s.setStreamLive k st x).lineTotals = s.lineTotals := rfl
@[simp] theorem State.setStreamLive_snapshot (k : Fin 48) (st : Stream) (x : StreamLive) : (s.setStreamLive k st x).snapshot = s.snapshot := rfl
@[simp] theorem State.setStreamLive_check (k : Fin 48) (st : Stream) (x : StreamLive) : (s.setStreamLive k st x).check = s.check := rfl
@[simp] theorem State.setStreamLive_attention (k : Fin 48) (st : Stream) (x : StreamLive) : (s.setStreamLive k st x).attention = s.attention := rfl
@[simp] theorem State.setStreamLive_field (k : Fin 48) (st : Stream) (x : StreamLive) : (s.setStreamLive k st x).field = s.field := rfl
@[simp] theorem State.setStreamLive_plant (k : Fin 48) (st : Stream) (x : StreamLive) : (s.setStreamLive k st x).plant = s.plant := rfl

@[simp] theorem State.setLineInput_pending (l : Fin 8) (x : LineInput) : (s.setLineInput l x).pending = s.pending := rfl
@[simp] theorem State.setLineInput_fresh (l : Fin 8) (x : LineInput) : (s.setLineInput l x).fresh = s.fresh := rfl
@[simp] theorem State.setLineInput_latent (l : Fin 8) (x : LineInput) : (s.setLineInput l x).latent = s.latent := rfl
@[simp] theorem State.setLineInput_pins (l : Fin 8) (x : LineInput) : (s.setLineInput l x).pins = s.pins := rfl
@[simp] theorem State.setLineInput_address (l : Fin 8) (x : LineInput) : (s.setLineInput l x).address = s.address := rfl
@[simp] theorem State.setLineInput_pthru (l : Fin 8) (x : LineInput) : (s.setLineInput l x).pthru = s.pthru := rfl
@[simp] theorem State.setLineInput_run (l : Fin 8) (x : LineInput) : (s.setLineInput l x).run = s.run := rfl
@[simp] theorem State.setLineInput_commands (l : Fin 8) (x : LineInput) : (s.setLineInput l x).commands = s.commands := rfl
@[simp] theorem State.setLineInput_executing (l : Fin 8) (x : LineInput) : (s.setLineInput l x).executing = s.executing := rfl
@[simp] theorem State.setLineInput_clock (l : Fin 8) (x : LineInput) : (s.setLineInput l x).clock = s.clock := rfl
@[simp] theorem State.setLineInput_furnaces (l : Fin 8) (x : LineInput) : (s.setLineInput l x).furnaces = s.furnaces := rfl
@[simp] theorem State.setLineInput_lines (l : Fin 8) (x : LineInput) : (s.setLineInput l x).lines = s.lines := rfl
@[simp] theorem State.setLineInput_jobs (l : Fin 8) (x : LineInput) : (s.setLineInput l x).jobs = s.jobs := rfl
@[simp] theorem State.setLineInput_furnaceLive (l : Fin 8) (x : LineInput) : (s.setLineInput l x).furnaceLive = s.furnaceLive := rfl
@[simp] theorem State.setLineInput_lineLive (l : Fin 8) (x : LineInput) : (s.setLineInput l x).lineLive = s.lineLive := rfl
@[simp] theorem State.setLineInput_groups (l : Fin 8) (x : LineInput) : (s.setLineInput l x).groups = s.groups := rfl
@[simp] theorem State.setLineInput_streams (l : Fin 8) (x : LineInput) : (s.setLineInput l x).streams = s.streams := rfl
@[simp] theorem State.setLineInput_heard (l : Fin 8) (x : LineInput) : (s.setLineInput l x).heard = s.heard := rfl
@[simp] theorem State.setLineInput_furnaceInputs (l : Fin 8) (x : LineInput) : (s.setLineInput l x).furnaceInputs = s.furnaceInputs := rfl
@[simp] theorem State.setLineInput_records (l : Fin 8) (x : LineInput) : (s.setLineInput l x).records = s.records := rfl
@[simp] theorem State.setLineInput_lost (l : Fin 8) (x : LineInput) : (s.setLineInput l x).lost = s.lost := rfl
@[simp] theorem State.setLineInput_furnaceTotals (l : Fin 8) (x : LineInput) : (s.setLineInput l x).furnaceTotals = s.furnaceTotals := rfl
@[simp] theorem State.setLineInput_lineTotals (l : Fin 8) (x : LineInput) : (s.setLineInput l x).lineTotals = s.lineTotals := rfl
@[simp] theorem State.setLineInput_snapshot (l : Fin 8) (x : LineInput) : (s.setLineInput l x).snapshot = s.snapshot := rfl
@[simp] theorem State.setLineInput_check (l : Fin 8) (x : LineInput) : (s.setLineInput l x).check = s.check := rfl
@[simp] theorem State.setLineInput_attention (l : Fin 8) (x : LineInput) : (s.setLineInput l x).attention = s.attention := rfl
@[simp] theorem State.setLineInput_field (l : Fin 8) (x : LineInput) : (s.setLineInput l x).field = s.field := rfl
@[simp] theorem State.setLineInput_plant (l : Fin 8) (x : LineInput) : (s.setLineInput l x).plant = s.plant := rfl

@[simp] theorem State.setFurnaceInput_pending (f : Fin 4) (x : FurnaceInput) : (s.setFurnaceInput f x).pending = s.pending := rfl
@[simp] theorem State.setFurnaceInput_fresh (f : Fin 4) (x : FurnaceInput) : (s.setFurnaceInput f x).fresh = s.fresh := rfl
@[simp] theorem State.setFurnaceInput_latent (f : Fin 4) (x : FurnaceInput) : (s.setFurnaceInput f x).latent = s.latent := rfl
@[simp] theorem State.setFurnaceInput_pins (f : Fin 4) (x : FurnaceInput) : (s.setFurnaceInput f x).pins = s.pins := rfl
@[simp] theorem State.setFurnaceInput_address (f : Fin 4) (x : FurnaceInput) : (s.setFurnaceInput f x).address = s.address := rfl
@[simp] theorem State.setFurnaceInput_pthru (f : Fin 4) (x : FurnaceInput) : (s.setFurnaceInput f x).pthru = s.pthru := rfl
@[simp] theorem State.setFurnaceInput_run (f : Fin 4) (x : FurnaceInput) : (s.setFurnaceInput f x).run = s.run := rfl
@[simp] theorem State.setFurnaceInput_commands (f : Fin 4) (x : FurnaceInput) : (s.setFurnaceInput f x).commands = s.commands := rfl
@[simp] theorem State.setFurnaceInput_executing (f : Fin 4) (x : FurnaceInput) : (s.setFurnaceInput f x).executing = s.executing := rfl
@[simp] theorem State.setFurnaceInput_clock (f : Fin 4) (x : FurnaceInput) : (s.setFurnaceInput f x).clock = s.clock := rfl
@[simp] theorem State.setFurnaceInput_furnaces (f : Fin 4) (x : FurnaceInput) : (s.setFurnaceInput f x).furnaces = s.furnaces := rfl
@[simp] theorem State.setFurnaceInput_lines (f : Fin 4) (x : FurnaceInput) : (s.setFurnaceInput f x).lines = s.lines := rfl
@[simp] theorem State.setFurnaceInput_jobs (f : Fin 4) (x : FurnaceInput) : (s.setFurnaceInput f x).jobs = s.jobs := rfl
@[simp] theorem State.setFurnaceInput_furnaceLive (f : Fin 4) (x : FurnaceInput) : (s.setFurnaceInput f x).furnaceLive = s.furnaceLive := rfl
@[simp] theorem State.setFurnaceInput_lineLive (f : Fin 4) (x : FurnaceInput) : (s.setFurnaceInput f x).lineLive = s.lineLive := rfl
@[simp] theorem State.setFurnaceInput_groups (f : Fin 4) (x : FurnaceInput) : (s.setFurnaceInput f x).groups = s.groups := rfl
@[simp] theorem State.setFurnaceInput_streams (f : Fin 4) (x : FurnaceInput) : (s.setFurnaceInput f x).streams = s.streams := rfl
@[simp] theorem State.setFurnaceInput_heard (f : Fin 4) (x : FurnaceInput) : (s.setFurnaceInput f x).heard = s.heard := rfl
@[simp] theorem State.setFurnaceInput_lineInputs (f : Fin 4) (x : FurnaceInput) : (s.setFurnaceInput f x).lineInputs = s.lineInputs := rfl
@[simp] theorem State.setFurnaceInput_records (f : Fin 4) (x : FurnaceInput) : (s.setFurnaceInput f x).records = s.records := rfl
@[simp] theorem State.setFurnaceInput_lost (f : Fin 4) (x : FurnaceInput) : (s.setFurnaceInput f x).lost = s.lost := rfl
@[simp] theorem State.setFurnaceInput_furnaceTotals (f : Fin 4) (x : FurnaceInput) : (s.setFurnaceInput f x).furnaceTotals = s.furnaceTotals := rfl
@[simp] theorem State.setFurnaceInput_lineTotals (f : Fin 4) (x : FurnaceInput) : (s.setFurnaceInput f x).lineTotals = s.lineTotals := rfl
@[simp] theorem State.setFurnaceInput_snapshot (f : Fin 4) (x : FurnaceInput) : (s.setFurnaceInput f x).snapshot = s.snapshot := rfl
@[simp] theorem State.setFurnaceInput_check (f : Fin 4) (x : FurnaceInput) : (s.setFurnaceInput f x).check = s.check := rfl
@[simp] theorem State.setFurnaceInput_attention (f : Fin 4) (x : FurnaceInput) : (s.setFurnaceInput f x).attention = s.attention := rfl
@[simp] theorem State.setFurnaceInput_field (f : Fin 4) (x : FurnaceInput) : (s.setFurnaceInput f x).field = s.field := rfl
@[simp] theorem State.setFurnaceInput_plant (f : Fin 4) (x : FurnaceInput) : (s.setFurnaceInput f x).plant = s.plant := rfl

@[simp] theorem State.setBoundary_pending (g : Fin 4) (x : Option Nat) : (s.setBoundary g x).pending = s.pending := rfl
@[simp] theorem State.setBoundary_fresh (g : Fin 4) (x : Option Nat) : (s.setBoundary g x).fresh = s.fresh := rfl
@[simp] theorem State.setBoundary_latent (g : Fin 4) (x : Option Nat) : (s.setBoundary g x).latent = s.latent := rfl
@[simp] theorem State.setBoundary_pins (g : Fin 4) (x : Option Nat) : (s.setBoundary g x).pins = s.pins := rfl
@[simp] theorem State.setBoundary_address (g : Fin 4) (x : Option Nat) : (s.setBoundary g x).address = s.address := rfl
@[simp] theorem State.setBoundary_pthru (g : Fin 4) (x : Option Nat) : (s.setBoundary g x).pthru = s.pthru := rfl
@[simp] theorem State.setBoundary_run (g : Fin 4) (x : Option Nat) : (s.setBoundary g x).run = s.run := rfl
@[simp] theorem State.setBoundary_commands (g : Fin 4) (x : Option Nat) : (s.setBoundary g x).commands = s.commands := rfl
@[simp] theorem State.setBoundary_executing (g : Fin 4) (x : Option Nat) : (s.setBoundary g x).executing = s.executing := rfl
@[simp] theorem State.setBoundary_furnaces (g : Fin 4) (x : Option Nat) : (s.setBoundary g x).furnaces = s.furnaces := rfl
@[simp] theorem State.setBoundary_lines (g : Fin 4) (x : Option Nat) : (s.setBoundary g x).lines = s.lines := rfl
@[simp] theorem State.setBoundary_jobs (g : Fin 4) (x : Option Nat) : (s.setBoundary g x).jobs = s.jobs := rfl
@[simp] theorem State.setBoundary_furnaceLive (g : Fin 4) (x : Option Nat) : (s.setBoundary g x).furnaceLive = s.furnaceLive := rfl
@[simp] theorem State.setBoundary_lineLive (g : Fin 4) (x : Option Nat) : (s.setBoundary g x).lineLive = s.lineLive := rfl
@[simp] theorem State.setBoundary_groups (g : Fin 4) (x : Option Nat) : (s.setBoundary g x).groups = s.groups := rfl
@[simp] theorem State.setBoundary_streams (g : Fin 4) (x : Option Nat) : (s.setBoundary g x).streams = s.streams := rfl
@[simp] theorem State.setBoundary_heard (g : Fin 4) (x : Option Nat) : (s.setBoundary g x).heard = s.heard := rfl
@[simp] theorem State.setBoundary_lineInputs (g : Fin 4) (x : Option Nat) : (s.setBoundary g x).lineInputs = s.lineInputs := rfl
@[simp] theorem State.setBoundary_furnaceInputs (g : Fin 4) (x : Option Nat) : (s.setBoundary g x).furnaceInputs = s.furnaceInputs := rfl
@[simp] theorem State.setBoundary_records (g : Fin 4) (x : Option Nat) : (s.setBoundary g x).records = s.records := rfl
@[simp] theorem State.setBoundary_lost (g : Fin 4) (x : Option Nat) : (s.setBoundary g x).lost = s.lost := rfl
@[simp] theorem State.setBoundary_furnaceTotals (g : Fin 4) (x : Option Nat) : (s.setBoundary g x).furnaceTotals = s.furnaceTotals := rfl
@[simp] theorem State.setBoundary_lineTotals (g : Fin 4) (x : Option Nat) : (s.setBoundary g x).lineTotals = s.lineTotals := rfl
@[simp] theorem State.setBoundary_snapshot (g : Fin 4) (x : Option Nat) : (s.setBoundary g x).snapshot = s.snapshot := rfl
@[simp] theorem State.setBoundary_check (g : Fin 4) (x : Option Nat) : (s.setBoundary g x).check = s.check := rfl
@[simp] theorem State.setBoundary_attention (g : Fin 4) (x : Option Nat) : (s.setBoundary g x).attention = s.attention := rfl
@[simp] theorem State.setBoundary_field (g : Fin 4) (x : Option Nat) : (s.setBoundary g x).field = s.field := rfl
@[simp] theorem State.setBoundary_plant (g : Fin 4) (x : Option Nat) : (s.setBoundary g x).plant = s.plant := rfl

@[simp] theorem State.withPending_fresh (q : List Instr) : (s.withPending q).fresh = s.fresh := rfl
@[simp] theorem State.withPending_latent (q : List Instr) : (s.withPending q).latent = s.latent := rfl
@[simp] theorem State.withPending_pins (q : List Instr) : (s.withPending q).pins = s.pins := rfl
@[simp] theorem State.withPending_address (q : List Instr) : (s.withPending q).address = s.address := rfl
@[simp] theorem State.withPending_pthru (q : List Instr) : (s.withPending q).pthru = s.pthru := rfl
@[simp] theorem State.withPending_run (q : List Instr) : (s.withPending q).run = s.run := rfl
@[simp] theorem State.withPending_commands (q : List Instr) : (s.withPending q).commands = s.commands := rfl
@[simp] theorem State.withPending_executing (q : List Instr) : (s.withPending q).executing = s.executing := rfl
@[simp] theorem State.withPending_clock (q : List Instr) : (s.withPending q).clock = s.clock := rfl
@[simp] theorem State.withPending_furnaces (q : List Instr) : (s.withPending q).furnaces = s.furnaces := rfl
@[simp] theorem State.withPending_lines (q : List Instr) : (s.withPending q).lines = s.lines := rfl
@[simp] theorem State.withPending_jobs (q : List Instr) : (s.withPending q).jobs = s.jobs := rfl
@[simp] theorem State.withPending_furnaceLive (q : List Instr) : (s.withPending q).furnaceLive = s.furnaceLive := rfl
@[simp] theorem State.withPending_lineLive (q : List Instr) : (s.withPending q).lineLive = s.lineLive := rfl
@[simp] theorem State.withPending_groups (q : List Instr) : (s.withPending q).groups = s.groups := rfl
@[simp] theorem State.withPending_streams (q : List Instr) : (s.withPending q).streams = s.streams := rfl
@[simp] theorem State.withPending_heard (q : List Instr) : (s.withPending q).heard = s.heard := rfl
@[simp] theorem State.withPending_lineInputs (q : List Instr) : (s.withPending q).lineInputs = s.lineInputs := rfl
@[simp] theorem State.withPending_furnaceInputs (q : List Instr) : (s.withPending q).furnaceInputs = s.furnaceInputs := rfl
@[simp] theorem State.withPending_records (q : List Instr) : (s.withPending q).records = s.records := rfl
@[simp] theorem State.withPending_lost (q : List Instr) : (s.withPending q).lost = s.lost := rfl
@[simp] theorem State.withPending_furnaceTotals (q : List Instr) : (s.withPending q).furnaceTotals = s.furnaceTotals := rfl
@[simp] theorem State.withPending_lineTotals (q : List Instr) : (s.withPending q).lineTotals = s.lineTotals := rfl
@[simp] theorem State.withPending_snapshot (q : List Instr) : (s.withPending q).snapshot = s.snapshot := rfl
@[simp] theorem State.withPending_check (q : List Instr) : (s.withPending q).check = s.check := rfl
@[simp] theorem State.withPending_attention (q : List Instr) : (s.withPending q).attention = s.attention := rfl
@[simp] theorem State.withPending_field (q : List Instr) : (s.withPending q).field = s.field := rfl
@[simp] theorem State.withPending_plant (q : List Instr) : (s.withPending q).plant = s.plant := rfl

@[simp] theorem State.reserveSlot_pending  : (s.reserveSlot).pending = s.pending := rfl
@[simp] theorem State.reserveSlot_fresh  : (s.reserveSlot).fresh = s.fresh := rfl
@[simp] theorem State.reserveSlot_latent  : (s.reserveSlot).latent = s.latent := rfl
@[simp] theorem State.reserveSlot_pins  : (s.reserveSlot).pins = s.pins := rfl
@[simp] theorem State.reserveSlot_address  : (s.reserveSlot).address = s.address := rfl
@[simp] theorem State.reserveSlot_pthru  : (s.reserveSlot).pthru = s.pthru := rfl
@[simp] theorem State.reserveSlot_run  : (s.reserveSlot).run = s.run := rfl
@[simp] theorem State.reserveSlot_commands  : (s.reserveSlot).commands = s.commands := rfl
@[simp] theorem State.reserveSlot_executing  : (s.reserveSlot).executing = s.executing := rfl
@[simp] theorem State.reserveSlot_clock  : (s.reserveSlot).clock = s.clock := rfl
@[simp] theorem State.reserveSlot_furnaces  : (s.reserveSlot).furnaces = s.furnaces := rfl
@[simp] theorem State.reserveSlot_lines  : (s.reserveSlot).lines = s.lines := rfl
@[simp] theorem State.reserveSlot_jobs  : (s.reserveSlot).jobs = s.jobs := rfl
@[simp] theorem State.reserveSlot_furnaceLive  : (s.reserveSlot).furnaceLive = s.furnaceLive := rfl
@[simp] theorem State.reserveSlot_lineLive  : (s.reserveSlot).lineLive = s.lineLive := rfl
@[simp] theorem State.reserveSlot_groups  : (s.reserveSlot).groups = s.groups := rfl
@[simp] theorem State.reserveSlot_streams  : (s.reserveSlot).streams = s.streams := rfl
@[simp] theorem State.reserveSlot_heard  : (s.reserveSlot).heard = s.heard := rfl
@[simp] theorem State.reserveSlot_lineInputs  : (s.reserveSlot).lineInputs = s.lineInputs := rfl
@[simp] theorem State.reserveSlot_furnaceInputs  : (s.reserveSlot).furnaceInputs = s.furnaceInputs := rfl
@[simp] theorem State.reserveSlot_records  : (s.reserveSlot).records = s.records := rfl
@[simp] theorem State.reserveSlot_lost  : (s.reserveSlot).lost = s.lost := rfl
@[simp] theorem State.reserveSlot_furnaceTotals  : (s.reserveSlot).furnaceTotals = s.furnaceTotals := rfl
@[simp] theorem State.reserveSlot_lineTotals  : (s.reserveSlot).lineTotals = s.lineTotals := rfl
@[simp] theorem State.reserveSlot_snapshot  : (s.reserveSlot).snapshot = s.snapshot := rfl
@[simp] theorem State.reserveSlot_check  : (s.reserveSlot).check = s.check := rfl
@[simp] theorem State.reserveSlot_attention  : (s.reserveSlot).attention = s.attention := rfl
@[simp] theorem State.reserveSlot_field  : (s.reserveSlot).field = s.field := rfl

@[simp] theorem State.drawn_pending  : (s.drawn).pending = s.pending := rfl
@[simp] theorem State.drawn_latent  : (s.drawn).latent = s.latent := rfl
@[simp] theorem State.drawn_pins  : (s.drawn).pins = s.pins := rfl
@[simp] theorem State.drawn_address  : (s.drawn).address = s.address := rfl
@[simp] theorem State.drawn_pthru  : (s.drawn).pthru = s.pthru := rfl
@[simp] theorem State.drawn_run  : (s.drawn).run = s.run := rfl
@[simp] theorem State.drawn_commands  : (s.drawn).commands = s.commands := rfl
@[simp] theorem State.drawn_executing  : (s.drawn).executing = s.executing := rfl
@[simp] theorem State.drawn_clock  : (s.drawn).clock = s.clock := rfl
@[simp] theorem State.drawn_furnaces  : (s.drawn).furnaces = s.furnaces := rfl
@[simp] theorem State.drawn_lines  : (s.drawn).lines = s.lines := rfl
@[simp] theorem State.drawn_jobs  : (s.drawn).jobs = s.jobs := rfl
@[simp] theorem State.drawn_furnaceLive  : (s.drawn).furnaceLive = s.furnaceLive := rfl
@[simp] theorem State.drawn_lineLive  : (s.drawn).lineLive = s.lineLive := rfl
@[simp] theorem State.drawn_groups  : (s.drawn).groups = s.groups := rfl
@[simp] theorem State.drawn_streams  : (s.drawn).streams = s.streams := rfl
@[simp] theorem State.drawn_heard  : (s.drawn).heard = s.heard := rfl
@[simp] theorem State.drawn_lineInputs  : (s.drawn).lineInputs = s.lineInputs := rfl
@[simp] theorem State.drawn_furnaceInputs  : (s.drawn).furnaceInputs = s.furnaceInputs := rfl
@[simp] theorem State.drawn_records  : (s.drawn).records = s.records := rfl
@[simp] theorem State.drawn_lost  : (s.drawn).lost = s.lost := rfl
@[simp] theorem State.drawn_furnaceTotals  : (s.drawn).furnaceTotals = s.furnaceTotals := rfl
@[simp] theorem State.drawn_lineTotals  : (s.drawn).lineTotals = s.lineTotals := rfl
@[simp] theorem State.drawn_snapshot  : (s.drawn).snapshot = s.snapshot := rfl
@[simp] theorem State.drawn_check  : (s.drawn).check = s.check := rfl
@[simp] theorem State.drawn_attention  : (s.drawn).attention = s.attention := rfl
@[simp] theorem State.drawn_field  : (s.drawn).field = s.field := rfl
@[simp] theorem State.drawn_plant  : (s.drawn).plant = s.plant := rfl

@[simp] theorem State.setLastAlerted_pending (x : Option Source) : (s.setLastAlerted x).pending = s.pending := rfl
@[simp] theorem State.setLastAlerted_fresh (x : Option Source) : (s.setLastAlerted x).fresh = s.fresh := rfl
@[simp] theorem State.setLastAlerted_latent (x : Option Source) : (s.setLastAlerted x).latent = s.latent := rfl
@[simp] theorem State.setLastAlerted_pins (x : Option Source) : (s.setLastAlerted x).pins = s.pins := rfl
@[simp] theorem State.setLastAlerted_address (x : Option Source) : (s.setLastAlerted x).address = s.address := rfl
@[simp] theorem State.setLastAlerted_pthru (x : Option Source) : (s.setLastAlerted x).pthru = s.pthru := rfl
@[simp] theorem State.setLastAlerted_run (x : Option Source) : (s.setLastAlerted x).run = s.run := rfl
@[simp] theorem State.setLastAlerted_commands (x : Option Source) : (s.setLastAlerted x).commands = s.commands := rfl
@[simp] theorem State.setLastAlerted_executing (x : Option Source) : (s.setLastAlerted x).executing = s.executing := rfl
@[simp] theorem State.setLastAlerted_clock (x : Option Source) : (s.setLastAlerted x).clock = s.clock := rfl
@[simp] theorem State.setLastAlerted_furnaces (x : Option Source) : (s.setLastAlerted x).furnaces = s.furnaces := rfl
@[simp] theorem State.setLastAlerted_lines (x : Option Source) : (s.setLastAlerted x).lines = s.lines := rfl
@[simp] theorem State.setLastAlerted_jobs (x : Option Source) : (s.setLastAlerted x).jobs = s.jobs := rfl
@[simp] theorem State.setLastAlerted_furnaceLive (x : Option Source) : (s.setLastAlerted x).furnaceLive = s.furnaceLive := rfl
@[simp] theorem State.setLastAlerted_lineLive (x : Option Source) : (s.setLastAlerted x).lineLive = s.lineLive := rfl
@[simp] theorem State.setLastAlerted_groups (x : Option Source) : (s.setLastAlerted x).groups = s.groups := rfl
@[simp] theorem State.setLastAlerted_streams (x : Option Source) : (s.setLastAlerted x).streams = s.streams := rfl
@[simp] theorem State.setLastAlerted_heard (x : Option Source) : (s.setLastAlerted x).heard = s.heard := rfl
@[simp] theorem State.setLastAlerted_lineInputs (x : Option Source) : (s.setLastAlerted x).lineInputs = s.lineInputs := rfl
@[simp] theorem State.setLastAlerted_furnaceInputs (x : Option Source) : (s.setLastAlerted x).furnaceInputs = s.furnaceInputs := rfl
@[simp] theorem State.setLastAlerted_records (x : Option Source) : (s.setLastAlerted x).records = s.records := rfl
@[simp] theorem State.setLastAlerted_lost (x : Option Source) : (s.setLastAlerted x).lost = s.lost := rfl
@[simp] theorem State.setLastAlerted_furnaceTotals (x : Option Source) : (s.setLastAlerted x).furnaceTotals = s.furnaceTotals := rfl
@[simp] theorem State.setLastAlerted_lineTotals (x : Option Source) : (s.setLastAlerted x).lineTotals = s.lineTotals := rfl
@[simp] theorem State.setLastAlerted_snapshot (x : Option Source) : (s.setLastAlerted x).snapshot = s.snapshot := rfl
@[simp] theorem State.setLastAlerted_check (x : Option Source) : (s.setLastAlerted x).check = s.check := rfl
@[simp] theorem State.setLastAlerted_field (x : Option Source) : (s.setLastAlerted x).field = s.field := rfl
@[simp] theorem State.setLastAlerted_plant (x : Option Source) : (s.setLastAlerted x).plant = s.plant := rfl

@[simp] theorem State.raise_pending (x : Source) : (s.raise x).pending = s.pending := rfl
@[simp] theorem State.raise_fresh (x : Source) : (s.raise x).fresh = s.fresh := rfl
@[simp] theorem State.raise_latent (x : Source) : (s.raise x).latent = s.latent := rfl
@[simp] theorem State.raise_pins (x : Source) : (s.raise x).pins = s.pins := rfl
@[simp] theorem State.raise_address (x : Source) : (s.raise x).address = s.address := rfl
@[simp] theorem State.raise_pthru (x : Source) : (s.raise x).pthru = s.pthru := rfl
@[simp] theorem State.raise_run (x : Source) : (s.raise x).run = s.run := rfl
@[simp] theorem State.raise_commands (x : Source) : (s.raise x).commands = s.commands := rfl
@[simp] theorem State.raise_executing (x : Source) : (s.raise x).executing = s.executing := rfl
@[simp] theorem State.raise_clock (x : Source) : (s.raise x).clock = s.clock := rfl
@[simp] theorem State.raise_furnaces (x : Source) : (s.raise x).furnaces = s.furnaces := rfl
@[simp] theorem State.raise_lines (x : Source) : (s.raise x).lines = s.lines := rfl
@[simp] theorem State.raise_jobs (x : Source) : (s.raise x).jobs = s.jobs := rfl
@[simp] theorem State.raise_furnaceLive (x : Source) : (s.raise x).furnaceLive = s.furnaceLive := rfl
@[simp] theorem State.raise_lineLive (x : Source) : (s.raise x).lineLive = s.lineLive := rfl
@[simp] theorem State.raise_groups (x : Source) : (s.raise x).groups = s.groups := rfl
@[simp] theorem State.raise_streams (x : Source) : (s.raise x).streams = s.streams := rfl
@[simp] theorem State.raise_heard (x : Source) : (s.raise x).heard = s.heard := rfl
@[simp] theorem State.raise_lineInputs (x : Source) : (s.raise x).lineInputs = s.lineInputs := rfl
@[simp] theorem State.raise_furnaceInputs (x : Source) : (s.raise x).furnaceInputs = s.furnaceInputs := rfl
@[simp] theorem State.raise_records (x : Source) : (s.raise x).records = s.records := rfl
@[simp] theorem State.raise_lost (x : Source) : (s.raise x).lost = s.lost := rfl
@[simp] theorem State.raise_furnaceTotals (x : Source) : (s.raise x).furnaceTotals = s.furnaceTotals := rfl
@[simp] theorem State.raise_lineTotals (x : Source) : (s.raise x).lineTotals = s.lineTotals := rfl
@[simp] theorem State.raise_snapshot (x : Source) : (s.raise x).snapshot = s.snapshot := rfl
@[simp] theorem State.raise_check (x : Source) : (s.raise x).check = s.check := rfl
@[simp] theorem State.raise_field (x : Source) : (s.raise x).field = s.field := rfl
@[simp] theorem State.raise_plant (x : Source) : (s.raise x).plant = s.plant := rfl

@[simp] theorem State.raiseStream_pending (k : Fin 48) (c : StreamCause) : (s.raiseStream k c).pending = s.pending := rfl
@[simp] theorem State.raiseStream_fresh (k : Fin 48) (c : StreamCause) : (s.raiseStream k c).fresh = s.fresh := rfl
@[simp] theorem State.raiseStream_latent (k : Fin 48) (c : StreamCause) : (s.raiseStream k c).latent = s.latent := rfl
@[simp] theorem State.raiseStream_pins (k : Fin 48) (c : StreamCause) : (s.raiseStream k c).pins = s.pins := rfl
@[simp] theorem State.raiseStream_address (k : Fin 48) (c : StreamCause) : (s.raiseStream k c).address = s.address := rfl
@[simp] theorem State.raiseStream_pthru (k : Fin 48) (c : StreamCause) : (s.raiseStream k c).pthru = s.pthru := rfl
@[simp] theorem State.raiseStream_run (k : Fin 48) (c : StreamCause) : (s.raiseStream k c).run = s.run := rfl
@[simp] theorem State.raiseStream_commands (k : Fin 48) (c : StreamCause) : (s.raiseStream k c).commands = s.commands := rfl
@[simp] theorem State.raiseStream_executing (k : Fin 48) (c : StreamCause) : (s.raiseStream k c).executing = s.executing := rfl
@[simp] theorem State.raiseStream_clock (k : Fin 48) (c : StreamCause) : (s.raiseStream k c).clock = s.clock := rfl
@[simp] theorem State.raiseStream_furnaces (k : Fin 48) (c : StreamCause) : (s.raiseStream k c).furnaces = s.furnaces := rfl
@[simp] theorem State.raiseStream_lines (k : Fin 48) (c : StreamCause) : (s.raiseStream k c).lines = s.lines := rfl
@[simp] theorem State.raiseStream_jobs (k : Fin 48) (c : StreamCause) : (s.raiseStream k c).jobs = s.jobs := rfl
@[simp] theorem State.raiseStream_furnaceLive (k : Fin 48) (c : StreamCause) : (s.raiseStream k c).furnaceLive = s.furnaceLive := rfl
@[simp] theorem State.raiseStream_lineLive (k : Fin 48) (c : StreamCause) : (s.raiseStream k c).lineLive = s.lineLive := rfl
@[simp] theorem State.raiseStream_groups (k : Fin 48) (c : StreamCause) : (s.raiseStream k c).groups = s.groups := rfl
@[simp] theorem State.raiseStream_streams (k : Fin 48) (c : StreamCause) : (s.raiseStream k c).streams = s.streams := rfl
@[simp] theorem State.raiseStream_heard (k : Fin 48) (c : StreamCause) : (s.raiseStream k c).heard = s.heard := rfl
@[simp] theorem State.raiseStream_lineInputs (k : Fin 48) (c : StreamCause) : (s.raiseStream k c).lineInputs = s.lineInputs := rfl
@[simp] theorem State.raiseStream_furnaceInputs (k : Fin 48) (c : StreamCause) : (s.raiseStream k c).furnaceInputs = s.furnaceInputs := rfl
@[simp] theorem State.raiseStream_records (k : Fin 48) (c : StreamCause) : (s.raiseStream k c).records = s.records := rfl
@[simp] theorem State.raiseStream_lost (k : Fin 48) (c : StreamCause) : (s.raiseStream k c).lost = s.lost := rfl
@[simp] theorem State.raiseStream_furnaceTotals (k : Fin 48) (c : StreamCause) : (s.raiseStream k c).furnaceTotals = s.furnaceTotals := rfl
@[simp] theorem State.raiseStream_lineTotals (k : Fin 48) (c : StreamCause) : (s.raiseStream k c).lineTotals = s.lineTotals := rfl
@[simp] theorem State.raiseStream_snapshot (k : Fin 48) (c : StreamCause) : (s.raiseStream k c).snapshot = s.snapshot := rfl
@[simp] theorem State.raiseStream_check (k : Fin 48) (c : StreamCause) : (s.raiseStream k c).check = s.check := rfl
@[simp] theorem State.raiseStream_field (k : Fin 48) (c : StreamCause) : (s.raiseStream k c).field = s.field := rfl
@[simp] theorem State.raiseStream_plant (k : Fin 48) (c : StreamCause) : (s.raiseStream k c).plant = s.plant := rfl

@[simp] theorem State.refreshLevels_pending  : (s.refreshLevels).pending = s.pending := rfl
@[simp] theorem State.refreshLevels_fresh  : (s.refreshLevels).fresh = s.fresh := rfl
@[simp] theorem State.refreshLevels_latent  : (s.refreshLevels).latent = s.latent := rfl
@[simp] theorem State.refreshLevels_pins  : (s.refreshLevels).pins = s.pins := rfl
@[simp] theorem State.refreshLevels_address  : (s.refreshLevels).address = s.address := rfl
@[simp] theorem State.refreshLevels_pthru  : (s.refreshLevels).pthru = s.pthru := rfl
@[simp] theorem State.refreshLevels_run  : (s.refreshLevels).run = s.run := rfl
@[simp] theorem State.refreshLevels_commands  : (s.refreshLevels).commands = s.commands := rfl
@[simp] theorem State.refreshLevels_executing  : (s.refreshLevels).executing = s.executing := rfl
@[simp] theorem State.refreshLevels_clock  : (s.refreshLevels).clock = s.clock := rfl
@[simp] theorem State.refreshLevels_furnaces  : (s.refreshLevels).furnaces = s.furnaces := rfl
@[simp] theorem State.refreshLevels_lines  : (s.refreshLevels).lines = s.lines := rfl
@[simp] theorem State.refreshLevels_jobs  : (s.refreshLevels).jobs = s.jobs := rfl
@[simp] theorem State.refreshLevels_furnaceLive  : (s.refreshLevels).furnaceLive = s.furnaceLive := rfl
@[simp] theorem State.refreshLevels_lineLive  : (s.refreshLevels).lineLive = s.lineLive := rfl
@[simp] theorem State.refreshLevels_groups  : (s.refreshLevels).groups = s.groups := rfl
@[simp] theorem State.refreshLevels_streams  : (s.refreshLevels).streams = s.streams := rfl
@[simp] theorem State.refreshLevels_heard  : (s.refreshLevels).heard = s.heard := rfl
@[simp] theorem State.refreshLevels_lineInputs  : (s.refreshLevels).lineInputs = s.lineInputs := rfl
@[simp] theorem State.refreshLevels_furnaceInputs  : (s.refreshLevels).furnaceInputs = s.furnaceInputs := rfl
@[simp] theorem State.refreshLevels_records  : (s.refreshLevels).records = s.records := rfl
@[simp] theorem State.refreshLevels_lost  : (s.refreshLevels).lost = s.lost := rfl
@[simp] theorem State.refreshLevels_furnaceTotals  : (s.refreshLevels).furnaceTotals = s.furnaceTotals := rfl
@[simp] theorem State.refreshLevels_lineTotals  : (s.refreshLevels).lineTotals = s.lineTotals := rfl
@[simp] theorem State.refreshLevels_snapshot  : (s.refreshLevels).snapshot = s.snapshot := rfl
@[simp] theorem State.refreshLevels_check  : (s.refreshLevels).check = s.check := rfl
@[simp] theorem State.refreshLevels_field  : (s.refreshLevels).field = s.field := rfl
@[simp] theorem State.refreshLevels_plant  : (s.refreshLevels).plant = s.plant := rfl

@[simp] theorem State.rewritten_pending (it : Item) : (s.rewritten it).pending = s.pending := rfl
@[simp] theorem State.rewritten_fresh (it : Item) : (s.rewritten it).fresh = s.fresh := rfl
@[simp] theorem State.rewritten_pins (it : Item) : (s.rewritten it).pins = s.pins := rfl
@[simp] theorem State.rewritten_address (it : Item) : (s.rewritten it).address = s.address := rfl
@[simp] theorem State.rewritten_pthru (it : Item) : (s.rewritten it).pthru = s.pthru := rfl
@[simp] theorem State.rewritten_run (it : Item) : (s.rewritten it).run = s.run := rfl
@[simp] theorem State.rewritten_commands (it : Item) : (s.rewritten it).commands = s.commands := rfl
@[simp] theorem State.rewritten_executing (it : Item) : (s.rewritten it).executing = s.executing := rfl
@[simp] theorem State.rewritten_clock (it : Item) : (s.rewritten it).clock = s.clock := rfl
@[simp] theorem State.rewritten_furnaces (it : Item) : (s.rewritten it).furnaces = s.furnaces := rfl
@[simp] theorem State.rewritten_lines (it : Item) : (s.rewritten it).lines = s.lines := rfl
@[simp] theorem State.rewritten_jobs (it : Item) : (s.rewritten it).jobs = s.jobs := rfl
@[simp] theorem State.rewritten_furnaceLive (it : Item) : (s.rewritten it).furnaceLive = s.furnaceLive := rfl
@[simp] theorem State.rewritten_lineLive (it : Item) : (s.rewritten it).lineLive = s.lineLive := rfl
@[simp] theorem State.rewritten_groups (it : Item) : (s.rewritten it).groups = s.groups := rfl
@[simp] theorem State.rewritten_streams (it : Item) : (s.rewritten it).streams = s.streams := rfl
@[simp] theorem State.rewritten_heard (it : Item) : (s.rewritten it).heard = s.heard := rfl
@[simp] theorem State.rewritten_lineInputs (it : Item) : (s.rewritten it).lineInputs = s.lineInputs := rfl
@[simp] theorem State.rewritten_furnaceInputs (it : Item) : (s.rewritten it).furnaceInputs = s.furnaceInputs := rfl
@[simp] theorem State.rewritten_records (it : Item) : (s.rewritten it).records = s.records := rfl
@[simp] theorem State.rewritten_lost (it : Item) : (s.rewritten it).lost = s.lost := rfl
@[simp] theorem State.rewritten_furnaceTotals (it : Item) : (s.rewritten it).furnaceTotals = s.furnaceTotals := rfl
@[simp] theorem State.rewritten_lineTotals (it : Item) : (s.rewritten it).lineTotals = s.lineTotals := rfl
@[simp] theorem State.rewritten_snapshot (it : Item) : (s.rewritten it).snapshot = s.snapshot := rfl
@[simp] theorem State.rewritten_check (it : Item) : (s.rewritten it).check = s.check := rfl
@[simp] theorem State.rewritten_attention (it : Item) : (s.rewritten it).attention = s.attention := rfl
@[simp] theorem State.rewritten_field (it : Item) : (s.rewritten it).field = s.field := rfl
@[simp] theorem State.rewritten_plant (it : Item) : (s.rewritten it).plant = s.plant := rfl

section
variable (p : Side) (q : Port)

@[simp] theorem State.setPort_pending : (s.setPort p q).pending = s.pending := by cases p <;> rfl
@[simp] theorem State.setPort_fresh : (s.setPort p q).fresh = s.fresh := by cases p <;> rfl
@[simp] theorem State.setPort_latent : (s.setPort p q).latent = s.latent := by cases p <;> rfl
@[simp] theorem State.setPort_pins : (s.setPort p q).pins = s.pins := by cases p <;> rfl
@[simp] theorem State.setPort_address : (s.setPort p q).address = s.address := by cases p <;> rfl
@[simp] theorem State.setPort_pthru : (s.setPort p q).pthru = s.pthru := by cases p <;> rfl
@[simp] theorem State.setPort_run : (s.setPort p q).run = s.run := by cases p <;> rfl
@[simp] theorem State.setPort_commands : (s.setPort p q).commands = s.commands := by cases p <;> rfl
@[simp] theorem State.setPort_executing : (s.setPort p q).executing = s.executing := by cases p <;> rfl
@[simp] theorem State.setPort_clock : (s.setPort p q).clock = s.clock := by cases p <;> rfl
@[simp] theorem State.setPort_furnaces : (s.setPort p q).furnaces = s.furnaces := by cases p <;> rfl
@[simp] theorem State.setPort_lines : (s.setPort p q).lines = s.lines := by cases p <;> rfl
@[simp] theorem State.setPort_jobs : (s.setPort p q).jobs = s.jobs := by cases p <;> rfl
@[simp] theorem State.setPort_furnaceLive : (s.setPort p q).furnaceLive = s.furnaceLive := by cases p <;> rfl
@[simp] theorem State.setPort_lineLive : (s.setPort p q).lineLive = s.lineLive := by cases p <;> rfl
@[simp] theorem State.setPort_groups : (s.setPort p q).groups = s.groups := by cases p <;> rfl
@[simp] theorem State.setPort_streams : (s.setPort p q).streams = s.streams := by cases p <;> rfl
@[simp] theorem State.setPort_heard : (s.setPort p q).heard = s.heard := by cases p <;> rfl
@[simp] theorem State.setPort_lineInputs : (s.setPort p q).lineInputs = s.lineInputs := by cases p <;> rfl
@[simp] theorem State.setPort_furnaceInputs : (s.setPort p q).furnaceInputs = s.furnaceInputs := by cases p <;> rfl
@[simp] theorem State.setPort_records : (s.setPort p q).records = s.records := by cases p <;> rfl
@[simp] theorem State.setPort_lost : (s.setPort p q).lost = s.lost := by cases p <;> rfl
@[simp] theorem State.setPort_furnaceTotals : (s.setPort p q).furnaceTotals = s.furnaceTotals := by cases p <;> rfl
@[simp] theorem State.setPort_lineTotals : (s.setPort p q).lineTotals = s.lineTotals := by cases p <;> rfl
@[simp] theorem State.setPort_snapshot : (s.setPort p q).snapshot = s.snapshot := by cases p <;> rfl
@[simp] theorem State.setPort_check : (s.setPort p q).check = s.check := by cases p <;> rfl
@[simp] theorem State.setPort_attention : (s.setPort p q).attention = s.attention := by cases p <;> rfl

end

section
variable (a : Account) (b : LiveBase)

@[simp] theorem State.setLiveBase_pending : (s.setLiveBase a b).pending = s.pending := by cases a <;> rfl
@[simp] theorem State.setLiveBase_fresh : (s.setLiveBase a b).fresh = s.fresh := by cases a <;> rfl
@[simp] theorem State.setLiveBase_latent : (s.setLiveBase a b).latent = s.latent := by cases a <;> rfl
@[simp] theorem State.setLiveBase_pins : (s.setLiveBase a b).pins = s.pins := by cases a <;> rfl
@[simp] theorem State.setLiveBase_address : (s.setLiveBase a b).address = s.address := by cases a <;> rfl
@[simp] theorem State.setLiveBase_pthru : (s.setLiveBase a b).pthru = s.pthru := by cases a <;> rfl
@[simp] theorem State.setLiveBase_run : (s.setLiveBase a b).run = s.run := by cases a <;> rfl
@[simp] theorem State.setLiveBase_commands : (s.setLiveBase a b).commands = s.commands := by cases a <;> rfl
@[simp] theorem State.setLiveBase_executing : (s.setLiveBase a b).executing = s.executing := by cases a <;> rfl
@[simp] theorem State.setLiveBase_clock : (s.setLiveBase a b).clock = s.clock := by cases a <;> rfl
@[simp] theorem State.setLiveBase_furnaces : (s.setLiveBase a b).furnaces = s.furnaces := by cases a <;> rfl
@[simp] theorem State.setLiveBase_lines : (s.setLiveBase a b).lines = s.lines := by cases a <;> rfl
@[simp] theorem State.setLiveBase_jobs : (s.setLiveBase a b).jobs = s.jobs := by cases a <;> rfl
@[simp] theorem State.setLiveBase_groups : (s.setLiveBase a b).groups = s.groups := by cases a <;> rfl
@[simp] theorem State.setLiveBase_streams : (s.setLiveBase a b).streams = s.streams := by cases a <;> rfl
@[simp] theorem State.setLiveBase_heard : (s.setLiveBase a b).heard = s.heard := by cases a <;> rfl
@[simp] theorem State.setLiveBase_lineInputs : (s.setLiveBase a b).lineInputs = s.lineInputs := by cases a <;> rfl
@[simp] theorem State.setLiveBase_furnaceInputs : (s.setLiveBase a b).furnaceInputs = s.furnaceInputs := by cases a <;> rfl
@[simp] theorem State.setLiveBase_records : (s.setLiveBase a b).records = s.records := by cases a <;> rfl
@[simp] theorem State.setLiveBase_lost : (s.setLiveBase a b).lost = s.lost := by cases a <;> rfl
@[simp] theorem State.setLiveBase_furnaceTotals : (s.setLiveBase a b).furnaceTotals = s.furnaceTotals := by cases a <;> rfl
@[simp] theorem State.setLiveBase_lineTotals : (s.setLiveBase a b).lineTotals = s.lineTotals := by cases a <;> rfl
@[simp] theorem State.setLiveBase_snapshot : (s.setLiveBase a b).snapshot = s.snapshot := by cases a <;> rfl
@[simp] theorem State.setLiveBase_check : (s.setLiveBase a b).check = s.check := by cases a <;> rfl
@[simp] theorem State.setLiveBase_attention : (s.setLiveBase a b).attention = s.attention := by cases a <;> rfl
@[simp] theorem State.setLiveBase_field : (s.setLiveBase a b).field = s.field := by cases a <;> rfl
@[simp] theorem State.setLiveBase_plant : (s.setLiveBase a b).plant = s.plant := by cases a <;> rfl

end

theorem State.furnaceCfg_setFurnaceCfg (i j : Fin 4) (x : FurnaceConfig) :
    (s.setFurnaceCfg i x).furnaceCfg j = if i = j then x else s.furnaceCfg j := vget_vset _ _ _ _
@[simp] theorem State.furnaceCfg_setFurnaceCfg_same (i : Fin 4) (x : FurnaceConfig) : (s.setFurnaceCfg i x).furnaceCfg i = x :=
  vget_vset_same _ _ _
theorem State.furnaceCfg_setFurnaceCfg_other {i j : Fin 4} (h : i ≠ j) (x : FurnaceConfig) : (s.setFurnaceCfg i x).furnaceCfg j = s.furnaceCfg j :=
  vget_vset_other _ h _

theorem State.lineCfg_setLineCfg (i j : Fin 8) (x : LineConfig) :
    (s.setLineCfg i x).lineCfg j = if i = j then x else s.lineCfg j := vget_vset _ _ _ _
@[simp] theorem State.lineCfg_setLineCfg_same (i : Fin 8) (x : LineConfig) : (s.setLineCfg i x).lineCfg i = x :=
  vget_vset_same _ _ _
theorem State.lineCfg_setLineCfg_other {i j : Fin 8} (h : i ≠ j) (x : LineConfig) : (s.setLineCfg i x).lineCfg j = s.lineCfg j :=
  vget_vset_other _ h _

theorem State.job_setJob (i j : Fin 8) (x : Job) :
    (s.setJob i x).job j = if i = j then x else s.job j := vget_vset _ _ _ _
@[simp] theorem State.job_setJob_same (i : Fin 8) (x : Job) : (s.setJob i x).job i = x :=
  vget_vset_same _ _ _
theorem State.job_setJob_other {i j : Fin 8} (h : i ≠ j) (x : Job) : (s.setJob i x).job j = s.job j :=
  vget_vset_other _ h _

theorem State.fLive_setFLive (i j : Fin 4) (x : FurnaceLive) :
    (s.setFLive i x).fLive j = if i = j then x else s.fLive j := vget_vset _ _ _ _
@[simp] theorem State.fLive_setFLive_same (i : Fin 4) (x : FurnaceLive) : (s.setFLive i x).fLive i = x :=
  vget_vset_same _ _ _
theorem State.fLive_setFLive_other {i j : Fin 4} (h : i ≠ j) (x : FurnaceLive) : (s.setFLive i x).fLive j = s.fLive j :=
  vget_vset_other _ h _

theorem State.lLive_setLLive (i j : Fin 8) (x : LineLive) :
    (s.setLLive i x).lLive j = if i = j then x else s.lLive j := vget_vset _ _ _ _
@[simp] theorem State.lLive_setLLive_same (i : Fin 8) (x : LineLive) : (s.setLLive i x).lLive i = x :=
  vget_vset_same _ _ _
theorem State.lLive_setLLive_other {i j : Fin 8} (h : i ≠ j) (x : LineLive) : (s.setLLive i x).lLive j = s.lLive j :=
  vget_vset_other _ h _

theorem State.group_setGroup (i j : Fin 4) (x : GroupClose) :
    (s.setGroup i x).group j = if i = j then x else s.group j := vget_vset _ _ _ _
@[simp] theorem State.group_setGroup_same (i : Fin 4) (x : GroupClose) : (s.setGroup i x).group i = x :=
  vget_vset_same _ _ _
theorem State.group_setGroup_other {i j : Fin 4} (h : i ≠ j) (x : GroupClose) : (s.setGroup i x).group j = s.group j :=
  vget_vset_other _ h _

theorem State.stream_setStream (i j : Fin 48) (x : Option Stream) :
    (s.setStream i x).stream j = if i = j then x else s.stream j := vget_vset _ _ _ _
@[simp] theorem State.stream_setStream_same (i : Fin 48) (x : Option Stream) : (s.setStream i x).stream i = x :=
  vget_vset_same _ _ _
theorem State.stream_setStream_other {i j : Fin 48} (h : i ≠ j) (x : Option Stream) : (s.setStream i x).stream j = s.stream j :=
  vget_vset_other _ h _

theorem State.lineInput_setLineInput (i j : Fin 8) (x : LineInput) :
    (s.setLineInput i x).lineInput j = if i = j then x else s.lineInput j := vget_vset _ _ _ _
@[simp] theorem State.lineInput_setLineInput_same (i : Fin 8) (x : LineInput) : (s.setLineInput i x).lineInput i = x :=
  vget_vset_same _ _ _
theorem State.lineInput_setLineInput_other {i j : Fin 8} (h : i ≠ j) (x : LineInput) : (s.setLineInput i x).lineInput j = s.lineInput j :=
  vget_vset_other _ h _

theorem State.furnaceInput_setFurnaceInput (i j : Fin 4) (x : FurnaceInput) :
    (s.setFurnaceInput i x).furnaceInput j = if i = j then x else s.furnaceInput j := vget_vset _ _ _ _
@[simp] theorem State.furnaceInput_setFurnaceInput_same (i : Fin 4) (x : FurnaceInput) : (s.setFurnaceInput i x).furnaceInput i = x :=
  vget_vset_same _ _ _
theorem State.furnaceInput_setFurnaceInput_other {i j : Fin 4} (h : i ≠ j) (x : FurnaceInput) : (s.setFurnaceInput i x).furnaceInput j = s.furnaceInput j :=
  vget_vset_other _ h _

theorem State.boundary_setBoundary (i j : Fin 4) (x : Option Nat) :
    (s.setBoundary i x).boundary j = if i = j then x else s.boundary j := vget_vset _ _ _ _
@[simp] theorem State.boundary_setBoundary_same (i : Fin 4) (x : Option Nat) : (s.setBoundary i x).boundary i = x :=
  vget_vset_same _ _ _
theorem State.boundary_setBoundary_other {i j : Fin 4} (h : i ≠ j) (x : Option Nat) : (s.setBoundary i x).boundary j = s.boundary j :=
  vget_vset_other _ h _

@[simp] theorem State.stream_setStreamLive_same (k : Fin 48) (st : Stream) (v : StreamLive) :
    (s.setStreamLive k st v).stream k = some { st with live := v } := vget_vset_same _ _ _
theorem State.stream_setStreamLive_other {j k : Fin 48} (h : k ≠ j) (st : Stream) (v : StreamLive) :
    (s.setStreamLive k st v).stream j = s.stream j := vget_vset_other _ h _

@[simp] theorem State.port_setPort_same (p : Side) (q : Port) : (s.setPort p q).port p = q := by cases p <;> rfl
@[simp] theorem State.port_setPort_other (p : Side) (q : Port) : (s.setPort p q).port p.other = s.port p.other := by
  cases p <;> rfl
@[simp] theorem State.port_other_setPort (p : Side) (q : Port) : (s.setPort p.other q).port p = s.port p := by
  cases p <;> rfl
@[simp] theorem State.setPort_port (p : Side) : s.setPort p (s.port p) = s := by cases p <;> rfl
@[simp] theorem Side.other_other (p : Side) : p.other.other = p := by cases p <;> rfl

/-- What a port reads as after a port has been replaced. -/
theorem State.port_setPort (p r : Side) (q : Port) : (s.setPort p q).port r = if p = r then q else s.port r := by
  cases p <;> cases r <;> rfl

@[simp] theorem State.liveBase_setLiveBase_same (a : Account) (b : LiveBase) : (s.setLiveBase a b).liveBase a = b := by
  cases a <;> simp [State.setLiveBase, State.liveBase]

end Machine

end Sys2Proof
end

