-- ==== Sys2Proof/Laws/Reads.lean ====
section
/-! SUPPORT. What a read of protected storage does (08): nothing where the storage is sound, and never anything to the
queue of commands, the run state, the clock, the pins, the links or the command unit. -/

namespace Sys2Proof.Machine

variable {s : State}

/-- Sound storage gives no error at any read. -/
theorem errorsIn_of_sound (h : s.sound) (it : Item) : s.errorsIn it = 0 := by
  simp [State.errorsIn, State.latentErrors, State.injectedErrors, h.1, h.2]

/-- A read of sound storage changes nothing. -/
theorem touch_of_sound (h : s.sound) (it : Item) : s.touch it = s := by
  simp [State.touch, errorsIn_of_sound h]

/-- Reads of sound storage change nothing. -/
theorem touchAll_of_sound (h : s.sound) (its : List Item) : s.touchAll its = s := by
  induction its with
  | nil => rfl
  | cons it its ih => simpa [State.touchAll, touch_of_sound h it] using ih

/-- Sound storage reads as it stands. -/
theorem furnaceAsRead_of_sound (h : s.sound) (f : Fin 4) : s.furnaceAsRead f = s.furnaceCfg f := by
  simp [State.furnaceAsRead, errorsIn_of_sound h]

theorem lineAsRead_of_sound (h : s.sound) (l : Fin 8) : s.lineAsRead l = s.lineCfg l := by
  simp [State.lineAsRead, errorsIn_of_sound h]

/-- A write finds no error to remove in sound storage. -/
theorem rewritten_of_sound (h : s.sound) (it : Item) : s.rewritten it = s := by
  simp [State.rewritten, h.1]
  cases s
  simp_all [State.sound]

/-- Everything a read can change: the check unit, the attention requests, the latent errors, and what the fault rules
R147 to R150 act on. -/
theorem touch_frame (s : State) (it : Item) :
    s.touch it = { s with
      latent := (s.touch it).latent, check := (s.touch it).check, attention := (s.touch it).attention
      furnaces := (s.touch it).furnaces, lines := (s.touch it).lines, jobs := (s.touch it).jobs
      furnaceLive := (s.touch it).furnaceLive, lineLive := (s.touch it).lineLive, groups := (s.touch it).groups
      streams := (s.touch it).streams, records := (s.touch it).records } := by
  have hd : ∀ (u : State) (i : Item), u.disarmed i = { u with check := (u.disarmed i).check } := by
    intro u i
    unfold State.disarmed
    split
    · rfl
    · split <;> rfl
  simp only [State.touch, State.rewritten, State.recordFault, State.raise]
  rw [hd s it]
  split
  · rfl
  · split
    · rfl
    · cases it with
      | stream k => rfl
      | config a => cases a <;> rfl
      | live a =>
        simp only [State.ownerFault]
        split <;> cases a <;> rfl
      | closing a => cases a <;> rfl
      | queue i => rfl

/-- Everything that reads can change. -/
theorem touchAll_frame (s : State) (its : List Item) :
    s.touchAll its = { s with
      latent := (s.touchAll its).latent, check := (s.touchAll its).check, attention := (s.touchAll its).attention
      furnaces := (s.touchAll its).furnaces, lines := (s.touchAll its).lines, jobs := (s.touchAll its).jobs
      furnaceLive := (s.touchAll its).furnaceLive, lineLive := (s.touchAll its).lineLive
      groups := (s.touchAll its).groups, streams := (s.touchAll its).streams, records := (s.touchAll its).records } := by
  induction its generalizing s with
  | nil => rfl
  | cons it its ih =>
    have h := ih (s.touch it)
    rw [touch_frame s it] at h
    have e : s.touchAll (it :: its) = (s.touch it).touchAll its := rfl
    rw [e]
    rw [touch_frame s it]
    exact h

end Sys2Proof.Machine
end

