-- ==== Sys2Proof/Laws/Commands.lean ====
section
/-! SUPPORT. How a command's row runs (10): what a free command unit does with an arrival, and how argument fields read
back. -/

namespace Sys2Proof.Machine

/-- The bytes of a field number `n`. -/
theorem be_length (n x : Nat) : (be n x).length = n := by
  induction n with
  | zero => rfl
  | succ n ih => simp [be, ih]

/-- One byte of a one-byte field. -/
@[simp] theorem be_one (b : Byte) : be 1 b.toNat = [b] := by simp [be]

theorem beNat_append (l m : List Byte) : beNat (l ++ m) = m.foldl (fun a b => a * 256 + b.toNat) (beNat l) := by
  simp [beNat]

/-- A field read from its first byte on, with what stands before it. -/
theorem foldl_be (n x a : Nat) :
    (be n x).foldl (fun a b => a * 256 + b.toNat) a = a * 256 ^ n + x % 256 ^ n := by
  induction n generalizing a with
  | zero => simp [be, Nat.mod_one]
  | succ n ih =>
    simp only [be, List.foldl_cons, BitVec.toNat_ofNat]
    have e : x % 256 ^ (n + 1) = 256 ^ n * (x / 256 ^ n % 256) + x % 256 ^ n := by
      rw [Nat.pow_succ, Nat.mod_mul, Nat.add_comm]
    have t : (2 : Nat) ^ 8 = 256 := rfl
    rw [ih, e, t, Nat.pow_succ]
    ring

/-- A field reads back as its value within its width. -/
theorem beNat_be (n x : Nat) : beNat (be n x) = x % 256 ^ n := by
  simpa [beNat] using foldl_be n x 0

/-- Argument bytes that begin with a field give that field, then the rest. -/
theorem fields_be (w x : Nat) (ws : List Nat) (rest : List Byte) (h : x < 256 ^ w) :
    fields (w :: ws) (be w x ++ rest) = (fields ws rest).map (x :: ·) := by
  have hl := be_length w x
  simp only [fields, List.length_append, hl, Nat.le_add_right, if_true]
  rw [List.drop_left' hl, List.take_left' hl, beNat_be, Nat.mod_eq_of_lt h]

/-- Arguments of one byte. -/
@[simp] theorem fields_one (b : Byte) : fields [1] [b] = some [b.toNat] := by simp [fields, beNat]

@[simp] theorem fields_two (a b : Byte) : fields [1, 1] [a, b] = some [a.toNat, b.toNat] := by simp [fields, beNat]

@[simp] theorem fields_three (a b c : Byte) : fields [1, 1, 1] [a, b, c] = some [a.toNat, b.toNat, c.toNat] := by
  simp [fields, beNat]

@[simp] theorem fields_four (a b c d : Byte) :
    fields [1, 1, 1, 1] [a, b, c, d] = some [a.toNat, b.toNat, c.toNat, d.toNat] := by simp [fields, beNat]

/-- R168, R170: a free command unit takes an arriving command at once. -/
theorem settle_arrive_of_free {s : State} (h : s.free) (c : Command) :
    settle (s.arrive c) = s.taken c (runCommand c s.reserveSlot).1 (runCommand c s.reserveSlot).2 := by
  obtain ⟨he, hc, hs⟩ := h
  have e : ({ s with commands := [] } : State) = s := by cases s; simp_all
  have m : (State.mayTake { s with commands := [c] }) = true := by
    simp only [State.mayTake, he, localCap, Option.isNone_none, Bool.true_and]
    exact decide_eq_true hs
  have a : s.arrive c = s.execute c := by
    have hl : s.commands.length < 4 := by simp [hc]
    rw [State.arrive, if_pos hl, hc]
    show State.tryTake { s with commands := [c] } = _
    unfold State.tryTake
    simp only [m, if_true]
    exact congrArg (fun u : State => u.execute c) e
  rw [a]
  rfl

/-- The row of a command at a free command unit: `args` are its arguments as R194 lays them out, `r` and `e` what
working it gives. -/
theorem next_taken {s : State} (h : s.free) {src code tag : Byte} {packed args : List Byte} {r : Reply} {e : State}
    (ha : packed = args) (hr : runCommand ⟨src, code, tag, args⟩ s.reserveSlot = (r, e)) :
    (.next (settle (s.arrive ⟨src, code, tag, packed⟩)) : Host.Outcome State Fault Refusal) =
      .next (s.taken ⟨src, code, tag, args⟩ r e) := by
  rw [ha, settle_arrive_of_free h, hr]

@[simp] theorem packFields_nil : packFields [] = [] := rfl

@[simp] theorem packFields_one (b : Byte) (rest : List (Nat × Nat)) :
    packFields ((1, b.toNat) :: rest) = b :: packFields rest := by simp [packFields]

/-- Reserving a slot leaves storage sound. -/
theorem sound_reserveSlot {s : State} (h : s.sound) : s.reserveSlot.sound := h

/-! ### Each code's handler (R194) -/

variable (src tag : Byte) (args : List Byte) (s : State)

theorem runCommand_stat : runCommand ⟨src, 0x01#8, tag, args⟩ s = takeStat args s := rfl
theorem runCommand_runa : runCommand ⟨src, 0x02#8, tag, args⟩ s = takeRuna args s := rfl
theorem runCommand_hlta : runCommand ⟨src, 0x03#8, tag, args⟩ s = takeHlta args s := rfl
theorem runCommand_clra : runCommand ⟨src, 0x04#8, tag, args⟩ s = takeClra args s := rfl
theorem runCommand_isol : runCommand ⟨src, 0x05#8, tag, args⟩ s = takeIsol args s := rfl
theorem runCommand_ldfn : runCommand ⟨src, 0x10#8, tag, args⟩ s = takeLdfn args s := rfl
theorem runCommand_rdfn : runCommand ⟨src, 0x11#8, tag, args⟩ s = takeRdfn args s := rfl
theorem runCommand_ldln : runCommand ⟨src, 0x12#8, tag, args⟩ s = takeLdln args s := rfl
theorem runCommand_rdln : runCommand ⟨src, 0x13#8, tag, args⟩ s = takeRdln args s := rfl
theorem runCommand_jobl : runCommand ⟨src, 0x14#8, tag, args⟩ s = takeJobl args s := rfl
theorem runCommand_ldst : runCommand ⟨src, 0x20#8, tag, args⟩ s = takeLdst args s := rfl
theorem runCommand_rdst : runCommand ⟨src, 0x21#8, tag, args⟩ s = takeRdst args s := rfl
theorem runCommand_sten : runCommand ⟨src, 0x22#8, tag, args⟩ s = takeSten args s := rfl
theorem runCommand_lstn : runCommand ⟨src, 0x23#8, tag, args⟩ s = takeLstn args s := rfl
theorem runCommand_clos : runCommand ⟨src, 0x30#8, tag, args⟩ s = takeClos args s := rfl
theorem runCommand_snap : runCommand ⟨src, 0x31#8, tag, args⟩ s = takeSnap args s := rfl
theorem runCommand_rdsn : runCommand ⟨src, 0x32#8, tag, args⟩ s = takeRdsn args s := rfl
theorem runCommand_take : runCommand ⟨src, 0x33#8, tag, args⟩ s = takeTake args s := rfl
theorem runCommand_look : runCommand ⟨src, 0x34#8, tag, args⟩ s = takeLook args s := rfl
theorem runCommand_rdtt : runCommand ⟨src, 0x35#8, tag, args⟩ s = takeRdtt args s := rfl
theorem runCommand_sett : runCommand ⟨src, 0x40#8, tag, args⟩ s = takeSett args s := rfl
theorem runCommand_adjt : runCommand ⟨src, 0x41#8, tag, args⟩ s = takeAdjt args s := rfl
theorem runCommand_rdtm : runCommand ⟨src, 0x42#8, tag, args⟩ s = takeRdtm args s := rfl
theorem runCommand_ldat : runCommand ⟨src, 0x50#8, tag, args⟩ s = takeLdat args s := rfl
theorem runCommand_atds : runCommand ⟨src, 0x51#8, tag, args⟩ s = takeAtds args s := rfl
theorem runCommand_peek : runCommand ⟨src, 0x52#8, tag, args⟩ s = takePeek args s := rfl
theorem runCommand_ackn : runCommand ⟨src, 0x53#8, tag, args⟩ s = takeAckn args s := rfl
theorem runCommand_eoas : runCommand ⟨src, 0x54#8, tag, args⟩ s = takeEoas args s := rfl
theorem runCommand_eoan : runCommand ⟨src, 0x55#8, tag, args⟩ s = takeEoan args s := rfl
theorem runCommand_rdfl : runCommand ⟨src, 0x60#8, tag, args⟩ s = takeRdfl args s := rfl
theorem runCommand_clfl : runCommand ⟨src, 0x61#8, tag, args⟩ s = takeClfl args s := rfl
theorem runCommand_injf : runCommand ⟨src, 0x62#8, tag, args⟩ s = takeInjf args s := rfl
theorem runCommand_lkcf : runCommand ⟨src, 0x70#8, tag, args⟩ s = takeLkcf args s := rfl
theorem runCommand_lkst : runCommand ⟨src, 0x71#8, tag, args⟩ s = takeLkst args s := rfl

end Sys2Proof.Machine
end

