-- ==== Sys2Proof/Laws/Operations.lean ====
section
/-! SUPPORT. What the shared operations can do, each said once: which fields of State they may change, and their result
in each of their cases. -/

namespace Sys2Proof.Machine

/-! ### Numbers -/

theorem bump_eq (n : Nat) : bump n = min 4294967295 (n + 1) := by
  unfold bump satAdd cap32
  split <;> omega

theorem satAdd_eq (cap x w : Nat) : satAdd cap x w = min cap (x + w) := by
  unfold satAdd
  split <;> omega

theorem satAdd_le (cap x w : Nat) : satAdd cap x w ≤ cap := by
  rw [satAdd_eq]
  omega

theorem corrClamp_within (x : Int) : corrLow ≤ corrClamp x ∧ corrClamp x ≤ corrHigh := by
  unfold corrClamp corrLow corrHigh
  split
  · omega
  · split <;> omega

theorem fin?_val {n : Nat} (f : Fin n) : fin? n f.val = some f := by simp [fin?]

theorem fin?_of_eq {n : Nat} (f : Fin n) {x : Nat} (h : f.val = x) : fin? n x = some f := by
  subst h
  exact fin?_val f

theorem fin?_of_le {n x : Nat} (h : n ≤ x) : fin? n x = none := by simp [fin?, h]

/-! ### Ports -/

@[simp] theorem State.setPort_setPort (s : State) (p : Side) (x y : Port) :
    (s.setPort p x).setPort p y = s.setPort p y := by cases p <;> rfl

/-- R164: a frame joins the local queue of an UP port with a free slot, and is lost otherwise. -/
theorem State.pushLocal_of_room (s : State) (p : Side) (f : Frame) (h : (s.port p).link = .up)
    (h' : (s.port p).slots < localCap p) :
    s.pushLocal p f = s.setPort p { s.port p with localQueue := (s.port p).localQueue ++ [f] } := by
  simp [State.pushLocal, h, h']

theorem State.pushLocal_of_lost (s : State) (p : Side) (f : Frame)
    (h : (s.port p).link ≠ .up ∨ localCap p ≤ (s.port p).slots) : s.pushLocal p f = s := by
  unfold State.pushLocal
  rw [if_neg]
  rintro ⟨a, b⟩
  rcases h with h | h
  · exact h a
  · omega

/-- R164: a push changes the ports alone. -/
theorem State.pushLocal_frame (s : State) (p : Side) (f : Frame) :
    s.pushLocal p f = { s with field := (s.pushLocal p f).field, plant := (s.pushLocal p f).plant } := by
  unfold State.pushLocal
  split
  · cases p <;> rfl
  · rfl

/-- R158: a link that is lost changes the ports alone. -/
theorem State.dropLink_frame (s : State) (p : Side) (l : LinkState) :
    s.dropLink p l = { s with field := (s.dropLink p l).field, plant := (s.dropLink p l).plant } := by
  cases p <;> rfl

/-! ### The attention unit and the command unit -/

/-- R181: the attention unit's work at the end of an event changes its own state and the plant port alone. -/
theorem State.attend_frame (s : State) :
    s.attend = { s with attention := s.attend.attention, plant := s.attend.plant } := by
  have push (f : Frame) (r : State) :
      r.pushLocal .plant f = { r with plant := (r.pushLocal .plant f).plant } := by
    unfold State.pushLocal
    split <;> rfl
  simp only [State.attend]
  cases s.refreshLevels.attention.highest with
  | none => rfl
  | some x =>
    by_cases h : s.refreshLevels.attention.lastAlerted = some x
    · simp only [h, if_true]
      rfl
    · by_cases h' : (s.refreshLevels.setLastAlerted (some x)).attention.destination = 0#8
      · simp only [h, h', if_true, if_false]
        rfl
      · simp only [h, h', if_false]
        rw [push]
        rfl

/-- R163: a transmitter's choice changes its own port alone. -/
theorem State.transmit_frame (s : State) (p : Side) : s.transmit p = s.setPort p ((s.transmit p).port p) := by
  obtain ⟨x, h⟩ : ∃ x, s.transmit p = s.setPort p x := by
    unfold State.transmit
    dsimp only
    split
    · split
      · exact ⟨_, rfl⟩
      · split
        · exact ⟨s.port p, by simp⟩
        · exact ⟨_, rfl⟩
      · exact ⟨_, rfl⟩
    · exact ⟨s.port p, by simp⟩
  simp [h]

/-- R163: a transmitter that sends idle changes its own port alone. -/
theorem State.startIdle_frame (s : State) (p : Side) : s.startIdle p = s.setPort p ((s.startIdle p).port p) := by
  unfold State.startIdle
  split
  · exact s.transmit_frame p
  · simp

/-- R163: a transmitter that is not sending idle, or has no frame ready, starts none. -/
theorem State.startIdle_of_none {s : State} {p : Side}
    (h : (s.port p).idles = false ∨ arbitrate (s.port p) (s.port p.other) = .idle) : s.startIdle p = s := by
  unfold State.startIdle
  rcases h with h | h <;> simp [h]

/-- R163, R181: what follows an event changes the attention unit and the ports alone. -/
theorem settle_frame (s : State) :
    settle s = { s with
      attention := (settle s).attention, field := (settle s).field, plant := (settle s).plant } := by
  have starts (u : State) (p : Side) : u.startIdle p =
      { u with field := (u.startIdle p).field, plant := (u.startIdle p).plant } := by
    rw [u.startIdle_frame p]
    cases p <;> rfl
  simp only [settle]
  rw [starts _ .plant, starts _ .field, s.attend_frame]

/-- R179 to R181: the starts of transmissions leave the attention unit as its own work has left it. -/
theorem settle_attention (s : State) : (settle s).attention = s.attend.attention := by
  unfold settle
  rw [State.startIdle_frame _ .plant, State.startIdle_frame _ .field]
  rfl

/-- R170: no command is taken where one is in execution, or none waits. -/
theorem State.tryTake_of_busy {s : State} (h : s.executing.isSome ∨ s.commands = []) : s.tryTake = s := by
  unfold State.tryTake
  split
  · rfl
  · rename_i c rest hc
    rcases h with h | h
    · have : s.mayTake = false := by
        unfold State.mayTake
        cases he : s.executing with
        | none => simp [he] at h
        | some _ => rfl
      rw [this]
      rfl
    · rw [h] at hc
      cases hc

/-! ### Booking -/

theorem State.setLiveBase_frame (s : State) (a : Account) (b : LiveBase) :
    s.setLiveBase a b = { s with
      furnaceLive := (s.setLiveBase a b).furnaceLive, lineLive := (s.setLiveBase a b).lineLive } := by
  cases a <;> rfl

/-- R58: a booking changes live sets alone. -/
theorem State.book_frame (s : State) (e : StreamEntry) (w : Nat) (est : Bool) :
    s.book e w est =
      { s with furnaceLive := (s.book e w est).furnaceLive, lineLive := (s.book e w est).lineLive } := by
  unfold State.book
  cases e.category
  · exact s.setLiveBase_frame _ _
  · exact s.setLiveBase_frame _ _
  · cases e.target <;> rfl
  · cases e.target <;> rfl
  · rfl

/-- R67: a correction changes live sets alone. -/
theorem State.bookCorrection_frame (s : State) (e : StreamEntry) (k : Int) :
    s.bookCorrection e k =
      { s with furnaceLive := (s.bookCorrection e k).furnaceLive, lineLive := (s.bookCorrection e k).lineLive } := by
  unfold State.bookCorrection
  cases e.category
  · exact s.setLiveBase_frame _ _
  · exact s.setLiveBase_frame _ _
  all_goals rfl

/-- R45: a held stream changes live sets alone, and removes an error of the set it is written to. -/
theorem State.addHeld_frame (s : State) (k : Fin 48) (e : StreamEntry) :
    s.addHeld k e = { s with
      latent := (s.addHeld k e).latent, furnaceLive := (s.addHeld k e).furnaceLive
      lineLive := (s.addHeld k e).lineLive } := by
  unfold State.addHeld
  split
  · cases e.target <;> rfl
  · rfl

/-! ### Closes -/

/-- R108: in sound storage the reads of a swap change nothing. -/
theorem State.swap_of_sound {s : State} (h : s.sound) (g : Fin 4) (cause : Cause) :
    s.swap g cause = s.swapFill g cause := by
  unfold State.swap
  rw [touchAll_of_sound h]

/-- R109: the period number that follows. -/
theorem nextPeriod_eq (p : Nat) (h : p ≤ 4294967295) : nextPeriod p = if p = 4294967295 then 1 else p + 1 := by
  unfold nextPeriod cap32
  split <;> split <;> omega

/-! ### Frames of the meters -/

/-- R161 to R164: `t` differs from `s` in the ports and in the counter of free values alone, and not in the link states,
local queues and reservations of the ports. -/
structure State.PortsOnly (s t : State) : Prop where
  frame : t = { s with fresh := t.fresh, field := t.field, plant := t.plant }
  link : ∀ p, (t.port p).link = (s.port p).link
  localQueue : ∀ p, (t.port p).localQueue = (s.port p).localQueue
  reserved : ∀ p, (t.port p).reserved = (s.port p).reserved

theorem State.PortsOnly.refl (s : State) : s.PortsOnly s := ⟨rfl, fun _ => rfl, fun _ => rfl, fun _ => rfl⟩

theorem State.PortsOnly.trans {s t u : State} (h : s.PortsOnly t) (h' : t.PortsOnly u) : s.PortsOnly u where
  frame := by rw [h'.frame]; rw [h.frame]
  link p := (h'.link p).trans (h.link p)
  localQueue p := (h'.localQueue p).trans (h.localQueue p)
  reserved p := (h'.reserved p).trans (h.reserved p)

theorem State.PortsOnly.ite {s t u : State} {c : Prop} [Decidable c] (h : s.PortsOnly t) (h' : s.PortsOnly u) :
    s.PortsOnly (if c then t else u) := by
  split <;> assumption

theorem State.PortsOnly.drawn (s : State) : s.PortsOnly s.drawn := ⟨rfl, fun _ => rfl, fun _ => rfl, fun _ => rfl⟩

theorem State.PortsOnly.setPort (s : State) {p : Side} {x : Port} (hl : x.link = (s.port p).link)
    (hq : x.localQueue = (s.port p).localQueue) (hr : x.reserved = (s.port p).reserved) :
    s.PortsOnly (s.setPort p x) where
  frame := by cases p <;> rfl
  link r := by cases p <;> cases r <;> first | exact hl | rfl
  localQueue r := by cases p <;> cases r <;> first | exact hq | rfl
  reserved r := by cases p <;> cases r <;> first | exact hr | rfl

/-- R162: an overrun. -/
theorem State.overrun_portsOnly (s : State) (p : Side) : s.PortsOnly (s.overrun p) := by
  have cutting (c : Prop) [Decidable c] (x y : Port) (h : x.link = (s.port p.other).link)
      (h' : x.localQueue = (s.port p.other).localQueue) (h'' : x.reserved = (s.port p.other).reserved)
      (g : y.link = (s.port p).link) (g' : y.localQueue = (s.port p).localQueue)
      (g'' : y.reserved = (s.port p).reserved) :
      s.PortsOnly ((if c then s.setPort p.other x else s).setPort p y) := by
    have hs : s.PortsOnly (if c then s.setPort p.other x else s) := .ite (.setPort s h h' h'') (.refl s)
    exact hs.trans (.setPort _ (g.trans (hs.link p).symm) (g'.trans (hs.localQueue p).symm)
      (g''.trans (hs.reserved p).symm))
  apply cutting <;> rfl

/-- R162: the room test. -/
theorem State.testRoom_portsOnly (s : State) (p : Side) : s.PortsOnly (s.testRoom p) := by
  unfold State.testRoom
  split
  · exact .refl s
  · split
    · split
      · exact .drawn s
      · exact .trans (.drawn s) (State.overrun_portsOnly _ _)
    · exact s.overrun_portsOnly p

/-- R159 to R162: the forwarding of an accepted frame. -/
theorem State.forward_portsOnly (s : State) (p : Side) (f : Frame) (begun : Begun) :
    s.PortsOnly (s.forward p f begun) := by
  have stored (t : State) (x y : Port) (h : s.PortsOnly (t.setPort p x))
      (hl : y.link = (((t.setPort p x).testRoom p).port p).link)
      (hq : y.localQueue = (((t.setPort p x).testRoom p).port p).localQueue)
      (hr : y.reserved = (((t.setPort p x).testRoom p).port p).reserved) :
      s.PortsOnly (((t.setPort p x).testRoom p).setPort p y) :=
    .trans (h.trans (State.testRoom_portsOnly _ _)) (.setPort _ hl hq hr)
  unfold State.forward State.endStored State.storeWhole
  dsimp only
  split
  · split
    · apply State.PortsOnly.setPort <;> rfl
    · apply stored
      · apply State.PortsOnly.setPort <;> rfl
      all_goals rfl
  · apply State.PortsOnly.setPort <;> rfl
  · split
    · apply stored
      · apply State.PortsOnly.setPort <;> rfl
      all_goals rfl
    · exact .refl s

/-- R163, R179 to R181: what follows an event keeps the streams, the live sets, the heard list and the STRM causes. -/
theorem settle_keeps (s : State) :
    (settle s).run = s.run ∧ (settle s).streams = s.streams ∧ (settle s).furnaceLive = s.furnaceLive ∧
      (settle s).lineLive = s.lineLive ∧ (settle s).heard = s.heard ∧ (settle s).jobs = s.jobs ∧
      (settle s).attention.strm = s.attention.strm := by
  have h := settle_frame s
  refine ⟨by rw [h], by rw [h], by rw [h], by rw [h], by rw [h], by rw [h], ?_⟩
  rw [settle_attention]
  unfold State.attend
  dsimp only
  repeat' split
  all_goals first | rfl | (rw [State.pushLocal_frame]; rfl)

@[simp] theorem settle_stream (s : State) (k : Fin 48) : (settle s).stream k = s.stream k := by
  unfold State.stream
  rw [(settle_keeps s).2.1]

@[simp] theorem settle_liveBase (s : State) (a : Account) : (settle s).liveBase a = s.liveBase a := by
  cases a <;> simp [State.liveBase, State.fLive, State.lLive, settle_keeps]

/-- R47, R160, R190: a frame of an enabled stream's pair, in sound storage outside PASS, is that stream's. -/
theorem State.matchFrame_of_enabled {s : State} (hr : s.run ≠ .pass) (hs : s.sound) {src : Byte} {ch : Nat} {k : Fin 48}
    {st : Stream} (hf : s.findStream src ch = some k) (hk : s.stream k = some st) (ho : st.live.state ≠ .off)
    (kind : Byte) (act : Fin 48 → State → State) : s.matchFrame src ch kind act = act k s := by
  have he : s.enabled k = true := by simp [State.enabled, hk, ho]
  unfold State.matchFrame
  rw [if_neg hr, hf]
  simp [he, touch_of_sound hs]

/-- R159, R160: an accepted smpl is forwarded and then taken by its stream. -/
theorem exec_smplReceived {s : State} {dest src b : Byte} {v : List Byte} {begun : Begun} (h : s.field.link = .up)
    (hv : v.length ≤ 247) (hr : s.run ≠ .pass) (hs : s.sound) {k : Fin 48} {st : Stream}
    (hf : s.findStream src (b.toNat % 16) = some k) (hk : s.stream k = some st) (ho : st.live.state ≠ .off) :
    ∃ s', s.PortsOnly s' ∧ exec (.smplReceived dest src ⟨b :: v, begun⟩) s =
      .next (settle (s'.streamSample k (sampleOf (b.toNat / 16) v))) := by
  have hp := s.forward_portsOnly .field ⟨dest, src, kindSmpl, b :: v⟩ begun
  refine ⟨_, hp, ?_⟩
  have hm := State.matchFrame_of_enabled (s := s.forward .field ⟨dest, src, kindSmpl, b :: v⟩ begun)
    (by rw [hp.frame]; exact hr) (by rw [hp.frame]; exact hs) (by rw [hp.frame]; exact hf) (by rw [hp.frame]; exact hk) ho
  have hl : v.length < 248 := by omega
  simp [exec, execSmplReceived, State.receive, State.port, h, hl, State.tap, State.tapSmpl, readSmpl, lowHalf,
    highHalf, hm]

/-- R159, R160: an accepted helo is forwarded and then taken by its stream. -/
theorem exec_heloReceived {s : State} {dest src b fs : Byte} {rest : List Byte} {begun : Begun}
    (h : s.field.link = .up) (hv : rest.length ≤ 246) (hr : s.run ≠ .pass) (hs : s.sound) {k : Fin 48} {st : Stream}
    (hf : s.findStream src (b.toNat % 16) = some k) (hk : s.stream k = some st) (ho : st.live.state ≠ .off) :
    ∃ s', s.PortsOnly s' ∧ exec (.heloReceived dest src ⟨b :: fs :: rest, begun⟩) s =
      .next (settle (s'.streamHelo k (formatSetOf fs))) := by
  have hp := s.forward_portsOnly .field ⟨dest, src, kindHelo, b :: fs :: rest⟩ begun
  refine ⟨_, hp, ?_⟩
  have hm := State.matchFrame_of_enabled (s := s.forward .field ⟨dest, src, kindHelo, b :: fs :: rest⟩ begun)
    (by rw [hp.frame]; exact hr) (by rw [hp.frame]; exact hs) (by rw [hp.frame]; exact hf) (by rw [hp.frame]; exact hk) ho
  have hl : rest.length + 1 < 248 := by omega
  simp only [kindHelo] at hm
  simp [exec, execHeloReceived, State.receive, State.port, h, hl, State.tap, State.tapHelo, readHelo, lowHalf,
    kindHelo, kindSmpl, hm]

end Sys2Proof.Machine
end

