-- ==== Sys2Proof/Tests/Slice0.lean ====
section
/-! SUPPORT. Checks of the operands that a sender may send, small tests against the manual's figures, and for each
statement with hypotheses a state that meets them. Expected values are the manual's or worked by hand from its rules. -/

namespace Sys2Proof.Tests

open Sys2Proof Sys2Proof.Machine

set_option Elab.async false

/-! ### Ill-formed commands are refused by the checks -/

theorem test_station_zero_is_no_source : wellFormed (.stat 0#8 1#8) = false := by decide
theorem test_broadcast_is_no_source : wellFormed (.clos 255#8 1#8 0#8) = false := by decide
theorem test_station_is_a_source : wellFormed (.clos 254#8 1#8 0#8) = true := by decide
theorem test_known_code_is_not_unknown : wellFormed (.unknownCommand 5#8 1#8 0x30#8 []) = false := by decide
theorem test_unknown_code_is_unknown : wellFormed (.unknownCommand 5#8 1#8 0x06#8 []) = true := by decide
theorem test_unknown_command_too_long :
    wellFormed (.unknownCommand 5#8 1#8 0x06#8 (List.replicate 247 0#8)) = false := by
  decide +kernel
theorem test_longest_payload : wellFormed (.frameForwardOnly .field 1#8 2#8 9#8 ⟨List.replicate 248 0#8, {}⟩) = true := by
  decide +kernel
theorem test_payload_too_long :
    wellFormed (.frameForwardOnly .field 1#8 2#8 9#8 ⟨List.replicate 249 0#8, {}⟩) = false := by
  decide +kernel
theorem test_good_bytes_are_no_bad_frame :
    wellFormed (.badFrame .field (Frame.bytes ⟨1#8, 2#8, 9#8, [7#8]⟩) false) = false := by
  decide +kernel
theorem test_aborted_good_bytes_are_bad :
    wellFormed (.badFrame .field (Frame.bytes ⟨1#8, 2#8, 9#8, [7#8]⟩) true) = true := by
  decide +kernel
theorem test_bad_frame_too_long : wellFormed (.badFrame .field (List.replicate 256 0#8) true) = false := by
  decide +kernel
theorem test_reception_too_long_to_start : wellFormed (.transmitStart .field ⟨List.replicate 255 0#8, {}⟩) = false := by
  decide +kernel
theorem test_overrun_before_the_third_byte : wellFormed (.forwardOverrun .field ⟨[1#8, 2#8], {}⟩) = false := by decide
theorem test_overrun_too_long : wellFormed (.forwardOverrun .field ⟨List.replicate 256 0#8, {}⟩) = false := by
  decide +kernel
theorem test_empty_burst_is_no_signal : wellFormed (.linkSignalSeen .field (.burst ⟨false, false⟩)) = false := by decide
theorem test_empty_burst_is_none : wellFormed (.offerBurstReceived .plant ⟨false, false⟩) = false := by decide
theorem test_empty_restart_is_none : wellFormed (.partnerRestart .plant ⟨false, false⟩) = false := by decide

/-! ### The manual's figures -/

/-- R189: the check of the nine ASCII digits 1 to 9. -/
theorem test_check_of_nine_digits :
    crc16 [0x31#8, 0x32#8, 0x33#8, 0x34#8, 0x35#8, 0x36#8, 0x37#8, 0x38#8, 0x39#8] = 0x29B1#16 := by
  decide +kernel
/-- 06, "Example: ties and a line that pulled nothing". -/
theorem test_tied_shares : shares 10 [0, 1000000, 1000000, 1000000] = [0, 4, 3, 3] := by decide
/-- R115: a larger remainder comes before an earlier line (hand: remainders 10 mod 3 and 20 mod 3). -/
theorem test_larger_remainder_first : shares 10 [1, 2] = [3, 7] := by decide
/-- R98, table: length 500, offset 360, from 22:40:00 the next is 06:00 of the next day. -/
theorem test_short_last_period : nextBoundary 360 500 81600 = some 108000 := by decide
/-- R98, table: length 500, offset 360, from 06:00:00 the next is 14:20. -/
theorem test_boundary_is_strictly_later : nextBoundary 360 500 21600 = some 51600 := by decide
/-- R98, table: length 1000, offset 1200, the boundaries are 12:40 and 20:00. -/
theorem test_boundary_wraps_the_day : nextBoundary 1200 1000 0 = some 45600 := by decide
/-- 03, "Example: a STEP meter with a repeat and a gap". -/
theorem test_sequence_gap_over_the_wrap : gapCount 254 1 = 2 := by decide
theorem test_sequence_gap : gapCount 41 44 = 2 := by decide
/-- 03, "Worked case": the delta across the rollover, its conversion, the estimate's and the correction's. -/
theorem test_delta_across_rollover : wrapDelta 100000000 99999200 1150 = 1950 := by decide
theorem test_delta_conversion : convert 23609344 40000 1950 = (702488, 7232) := by decide
theorem test_estimate_conversion : convertEstimate 23609344 7232 191692800 = (1053731, 23616) := by decide
theorem test_correction_half_down : roundCorrection (-2147483648) = -1 := by decide
theorem test_correction_half_up : roundCorrection 2147483648 = 1 := by decide
/-- R118: 5 kJ over 2 t gives 2.5, and the half goes up; a mass equal to the threshold is not low. -/
theorem test_ratio_half_goes_up : ratioItem 5 2000000 2000000 false = { value := some 3 } := by decide
theorem test_ratio_saturates :
    ratioItem 4294967296 1000000 0 false = { value := some 4294967295, sat := true } := by decide
/-- R131: SAT stands where the value is given as 4,294,967,295. -/
theorem test_ratio_at_its_top :
    ratioItem 4294967295 1000000 0 false = { value := some 4294967295, sat := true } := by decide

/-! ### Small states -/

/-- An UP port. -/
def upPort : Port := { link := .up, rate := some .b, line := .idle .b }

/-- The gas meter of the manual's worked case (02, 03), as stream S0 on F0. -/
def gasMeter : StreamEntry :=
  { source := 17#8, channel := 2, category := .energy, kind := .gas, target := .furnace 0
    formats := ⟨true, false, false, false⟩, modulus := 100000000, factor := 23609344, maxRate := 20, interval := 60
    hold := 30, sensitive := false }

/-- A GOBW stream of line L0, as stream S1. -/
def gobMeter : StreamEntry :=
  { source := 18#8, channel := 0, category := .gobw, kind := .gas, target := .line 0
    formats := ⟨false, false, false, true⟩, modulus := 2, factor := 65536, maxRate := 1, interval := 1, hold := 1
    sensitive := false }

/-- F0 DEFINED in mode BOTH with mark source 30 and blanking 45 s; F1 to F3 UNUSED. -/
def furnaces : Vector FurnaceConfig 4 :=
  vset (Vector.replicate 4 {}) 0 { defined := true, mode := .both, markSource := 30, blanking := 45 }

/-- L0 assigned to F0, with spacing 150 ms and timeout 30 s; the other lines UNUSED. -/
def lines : Vector LineConfig 8 :=
  vset (Vector.replicate 8 {}) 0 { furnace := some 0, spacing := 150, timeout := 30, gobHigh := 5000 }

/-- A part with both ports UP, the plant clock set at 100 s, the elapsed base at 1,000,000 ms, F0 and L0 in use, and
S0 loaded with live state `v`. -/
def plantOf (r : RunState) (v : StreamLive) : State := { State.reset with
  run := r
  field := upPort
  plant := upPort
  clock := { sec := 100, ms := 7, timeSet := true, elapsed := 1000000
             boundary := vset (Vector.replicate 4 none) 0 (some 21600) }
  furnaces := furnaces
  lines := lines
  jobs := vset (Vector.replicate 8 {}) 0 { gobs := 2, weight := 3873 }
  streams := vset (Vector.replicate 48 none) 0 (some { entry := gasMeter, live := v }) }

/-- The gas meter LIVE as the worked case begins: base 99,999,200, remainder 40,000, last good sample 120 s ago. -/
def liveMeter : StreamLive :=
  { state := .live, format := some .total32, base := some 99999200, remainder := 40000, lastGood := some 880000
    heldRate := 1064960, staleAt := some 1000000, holdAt := some 2680000 }

/-- The gas meter STALE. -/
def staleMeter : StreamLive :=
  { liveMeter with state := .stale, staleAt := none, intervalAt := some 1000000, holdAt := some 1000000 }

/-- The gas meter in WAIT, and in SELECT with its timer due. -/
def waitMeter : StreamLive := { state := .wait }
def selectMeter : StreamLive := { state := .select, format := some .total32, selectAt := some 1000000, attempts := 2 }

/-- The part in RUN, in HALT and in IDLE. -/
def running : State := plantOf .run liveMeter
def halted : State := plantOf .halt {}
def idle : State := plantOf .idle {}

/-- `s` with the pending CUT, REJ and DIV changes of L0 and REV change of F0 due now, on tracked inputs at LOW. -/
def edges (s : State) : State := { s with
  pins := { s.pins with cut := vset s.pins.cut 0 true }
  lineInputs := vset s.lineInputs 0 { s.lineInput 0 with
    cut := some { level := false, since := some 999999 }
    rej := some { level := false, since := some 999999 }
    div := some { level := false, since := some 999999 } }
  furnaceInputs := vset s.furnaceInputs 0 { s.furnaceInput 0 with rev := some { level := false, since := some 999900 } } }

/-- The part in RUN with the edges of L0 due and the GOBW stream S1 loaded with live state `v`. -/
def gobbing (v : StreamLive) : State := (edges running).setStream 1 (some { entry := gobMeter, live := v })

/-- The closing set that a swap of F0's group fills in `running`. -/
def closingSet : ClosingSet := running.closingOf 0 .mark

/-- `s` with F0's group CLOSING. -/
def closingNow (s : State) (deferred : Bool) : State :=
  s.setGroup 0 { closing := some closingSet, deferred := deferred, period := 2 }

/-- The record of that closing set. -/
def record : GroupRecord := closingSet.record 0

/-- The state after a command that goes on. -/
def after (c : Instr) (s : State) : State :=
  match exec c s with
  | .next t => t
  | _ => s

/-- The answer status after a command that is taken at once. -/
def statusAfter (c : Instr) (s : State) : Option Status := (after c s).executing.map fun x => x.reply.status

/-! ### One step each -/

/-- R13: PTHRU high gives PASS, and the straps 255 the address 254. -/
theorem test_reset_latches_straps :
    (after (.powerOnReset 255#8 true) running).run = .pass ∧
      (after (.powerOnReset 255#8 true) running).address = 254#8 := by decide +kernel
/-- R15: without a defined furnace runa is refused. -/
theorem test_runa_needs_a_furnace : statusAfter (.runa 9#8 1#8) State.reset = some .state := by decide +kernel
/-- R8: 5 gobs per cut are out of range. -/
theorem test_jobl_five_gobs : statusAfter (.jobl 9#8 1#8 0#8 5#8 100#16) running = some .badarg := by decide +kernel
/-- R146, R28: a base, last sequence and last good time past their ranges read as absent; a base in its range stands. -/
theorem test_out_of_range_reads_as_absent :
    let read (v : StreamLive) : StreamLive := (Stream.sanitized { entry := gasMeter, live := v }).live
    (read { liveMeter with base := some 100000000 }).base = none ∧ (read liveMeter).base = some 99999200 ∧
      (read { liveMeter with format := some .total16, base := some 65536 }).base = none ∧
      (read { liveMeter with lastSeq := some 256 }).lastSeq = none ∧
      (read { liveMeter with lastGood := some (cap48 + 1) }).lastGood = none := by decide
/-- R135: a take of an empty queue. -/
theorem test_take_of_empty_queue : statusAfter (.take 9#8 1#8 0#8 0#8 1#32) running = some .empty := by
  decide +kernel
/-- R104: a close of a CLOSING group is BUSY. -/
theorem test_clos_while_closing : statusAfter (.clos 9#8 1#8 0#8) (closingNow running false) = some .busy := by
  decide +kernel
/-- R95: sett sets plant time. -/
theorem test_sett : (after (.sett 9#8 1#8 86400#32 5#16) running).clock.sec = 86400 := by decide +kernel
/-- R96: adjt takes a negative offset. -/
theorem test_adjt_back : (after (.adjt 9#8 1#8 (BitVec.ofInt 32 (-7))) running).clock.ms = 0 := by decide +kernel
/-- 03, "Worked case", the sample at 0 s: what F0 gains, and the stream's base and remainder. -/
theorem test_gas_sample_books :
    (vget (after (.smplReceived 254#8 17#8 ⟨0x12#8 :: be 4 1150, {}⟩) running).furnaceLive 0).base.energy.gas = 702488 ∧
    ((after (.smplReceived 254#8 17#8 ⟨0x12#8 :: be 4 1150, {}⟩) running).stream 0).map
      (fun st => (st.live.base, st.live.remainder, st.live.heldRate)) = some (some 1150, 7232, 1064960) := by
  decide +kernel
/-- 04, "one line through a stoppage": a cut of 2 gobs of 387.3 g with DIV LOW forms 774.6 g. -/
theorem test_cut_forms_mass :
    (vget (after (.cutEdge 0) (edges running)).lineLive 0).formed = { grams := 774, tenths := 6 } := by decide +kernel
/-- 04, the same line: one reject of 387.3 g. -/
theorem test_reject_mass :
    (vget (after (.rejEdge 0) (edges running)).lineLive 0).rejected = { grams := 387, tenths := 3 } := by
  decide +kernel
/-- R90: blanking ends 45 s after the reversal. -/
theorem test_reversal_starts_blanking :
    (vget (after (.reversal 0) (edges running)).furnaceInputs 0).blankingEnd = some 1045000 := by decide +kernel
/-- R157: B goes before A. -/
theorem test_offer_prefers_b :
    (after (.linkSignalSeen .field (.burst ⟨true, true⟩)) State.reset).field.rate = some .b := by decide +kernel
/-- R190, R105: a mark of F0's source closes F0's group, and moves its period number on. -/
theorem test_mark_closes :
    ((after (.markReceived .plant 255#8 30#8 ⟨[1#8], {}⟩) halted).group 0).period = 2 := by decide +kernel
/-- R182, R183: ldat and atds with arguments that are none. -/
theorem test_ldat_priority_eight : statusAfter (.ldat 9#8 1#8 0#8 8#8 0#8 0#8) running = some .badarg := by
  decide +kernel
theorem test_atds_threshold_eight : statusAfter (.atds 9#8 1#8 9#8 8#8) running = some .badarg := by decide +kernel
/-- R181, R163: an unmasked raise with a destination makes one alrt frame, behind the sample that it came with on the
idle plant port. -/
theorem test_raise_alerts :
    (after (.smplReceived 254#8 40#8 ⟨0x10#8 :: be 4 1, {}⟩) { running with
        attention := { masked := Vector.replicate 7 false, destination := 9#8, lastAlerted := some .lstp } }).plant.localQueue =
      [{ dest := 9#8, src := 254#8, kind := 7#8, payload := [6#8, 7#8] }] := by decide +kernel
/-- R163: the same on a part whose field segment sends nothing on: the alrt starts at its own event. -/
theorem test_idle_transmitter_starts_alert :
    (after (.smplReceived 254#8 40#8 ⟨0x10#8 :: be 4 1, { linked := false }⟩) { running with
        attention := { masked := Vector.replicate 7 false, destination := 9#8, lastAlerted := some .lstp } }).plant.tx =
      some (.own (Frame.bytes { dest := 9#8, src := 254#8, kind := 7#8, payload := [6#8, 7#8] })) := by decide +kernel

/-! ### States that meet the statements' hypotheses -/

theorem witness_CommandsGoOn : ∃ t, exec .secondMark running = .next t := ⟨_, rfl⟩

/-- A queue of two records of F0's group in order, and a completion that appends to it. -/
theorem witness_StepKeepsRecordsInOrder :
    ∃ t, ({ running with records := [record, { record with period := 2 }], pending := [.secondMark] } : State).RecordsInOrder ∧
      step { running with records := [record, { record with period := 2 }], pending := [.secondMark] } = .next t := by
  refine ⟨_, ?_, rfl⟩
  unfold State.RecordsInOrder
  decide +kernel

theorem witness_StepKeepsZeroSets :
    ∃ t, idle.ZeroOutsideAccounting ∧ idle.run = .idle ∧ step { idle with pending := [.secondMark] } = .next t := by
  refine ⟨_, ?_, rfl, rfl⟩
  unfold State.ZeroOutsideAccounting
  decide +kernel

theorem witness_StepKeepsDeferredFlags :
    ∃ t, (closingNow running true).DeferredOnlyClosing ∧
      step { closingNow running true with pending := [.closeCompletion 0] } = .next t := by
  refine ⟨_, ?_, rfl⟩
  unfold State.DeferredOnlyClosing
  decide +kernel

/-- LSTP with priority 2 and QFUL with priority 3 in service. -/
def serving : State := { running with attention := {
  priority := vset (vset (Vector.replicate 7 7) 2 2) 5 3
  masked := Vector.replicate 7 false
  inService := vset (vset (Vector.replicate 7 false) 2 true) 5 true } }

theorem witness_StepKeepsPriorities :
    ∃ t, serving.NoSharedPriority ∧ step { serving with pending := [.ackn 9#8 1#8] } = .next t := by
  refine ⟨_, ?_, rfl⟩
  intro x y
  cases x <;> cases y <;> decide +kernel

/-- S0 and S1 hold different pairs. -/
def twoStreams : State := running.setStream 1 (some { entry := gobMeter })

theorem witness_StepKeepsPairsDistinct :
    ∃ t, twoStreams.PairsDistinct ∧ step { twoStreams with pending := [.secondMark] } = .next t := by
  refine ⟨_, ?_, rfl⟩
  have only : ∀ j k : Fin 48, (twoStreams.stream j).isSome = true → (twoStreams.stream k).isSome = true →
      (twoStreams.stream j).map (fun a => a.entry.source) = (twoStreams.stream k).map (fun a => a.entry.source) →
      j = k := by decide +kernel
  intro j k a b hj hk hs _
  exact only j k (by rw [hj]; rfl) (by rw [hk]; rfl) (by rw [hj, hk]; simpa using hs)

theorem witness_StepKeepsQueuesAndPorts :
    ∃ t, running.QueuesWithinBounds ∧ running.PortsEmptyUnlessUp ∧
      step { running with pending := [.linkSignalLoss .plant] } = .next t := by
  refine ⟨_, ?_, ?_, rfl⟩
  · unfold State.QueuesWithinBounds
    decide
  · unfold State.PortsEmptyUnlessUp State.PortEmpty
    decide

theorem witness_StepKeepsLiveWithinCaps :
    ∃ t, running.LiveWithinCaps ∧ step { running with pending := [.cutEdge 0] } = .next t := by
  refine ⟨_, ⟨?_, ?_⟩, rfl⟩
  · intro f
    refine ⟨⟨?_, ?_⟩, ?_⟩
    · intro k
      cases k <;> revert f <;> decide +kernel
    · revert f
      decide +kernel
    · revert f
      decide +kernel
  · intro l
    refine ⟨⟨?_, ?_⟩, ?_⟩
    · intro k
      cases k <;> revert l <;> decide +kernel
    · revert l
      decide +kernel
    · revert l
      unfold Mass.WithinCaps
      decide +kernel

theorem witness_EveryStepLeavesTheUnitAlerted : ∃ t, step { serving with pending := [.eoan 9#8 1#8] } = .next t :=
  ⟨_, rfl⟩

/-- Shares: the manual's tie, an entry with 1 kJ more and one without, and a closing set with no pulled mass. -/
theorem witness_SharesSumToTheNet :
    0 < [0, 1000000, 1000000, 1000000].sum ∧
      (shares 10 [0, 1000000, 1000000, 1000000])[1]? = some (10 * 1000000 / 3000000 + 1) ∧
      (shares 10 [0, 1000000, 1000000, 1000000])[2]? = some (10 * 1000000 / 3000000) ∧ closingSet.pulled = 0 := by
  decide +kernel

/-- A closing set whose line pulled mass. -/
theorem witness_SharesSumToTheNet_pulled :
    0 < ({ closingSet with lines := [{ line := 0, live := { formed := ⟨1000, 0⟩ }, limits := ⟨0, 0, 0⟩ }] } : ClosingSet).pulled := by
  decide +kernel

/-- A mass, a mass of 0, a ratio at the top value, which saturates, and one below it, which does not. -/
theorem witness_RatioRoundsToNearest :
    (ratioItem 5 2000000 0 false).value = some 3 ∧ (ratioItem 5 0 0 false).value = none ∧
      (ratioItem 4294967295 1000000 0 false).sat = true ∧ (ratioItem 4294967294 1000000 0 false).sat = false := by decide

/-- The bounds of the modulus, and an exact half. -/
theorem witness_BookingArithmeticIsExact :
    99999999 < 100000000 ∧ (0 : Nat) < 100000000 ∧ (0 : Int) ≤ 2147483648 := by decide

/-- The shortest and the longest period at the last offset. -/
theorem witness_NextBoundaryIsTheFirst :
    nextBoundary 1439 1440 0 = some 86340 ∧ nextBoundary 1439 1 0 = some 60 := by decide +kernel
/-- The last boundary instant of the plant time range, one second ahead. -/
theorem witness_NextBoundaryIsFound :
    4294967279 < 4294967280 ∧ 4294967280 ≤ 4294967295 ∧ 388 * 1 < 1440 ∧
      4294967280 % 86400 = 60 * ((0 + 388 * 1) % 1440) ∧ nextBoundary 0 1 4294967279 = some 4294967280 := by
  decide +kernel

/-- The longest payload, the empty one, and fields at their widest. -/
theorem witness_BytesReadBack :
    (List.replicate 248 (7#8 : Byte)).length ≤ 248 ∧ ∀ p ∈ [(1, 255), (2, 65535), (4, 4294967295)], p.2 < 256 ^ p.1 := by
  decide +kernel

/-- A command waiting state: one command in execution. -/
def busy : State := { running with
  executing := some { command := ⟨9#8, 0x01#8, 1#8, []⟩, reply := ⟨.done, []⟩, due := 1000002 }
  plant := { upPort with reserved := 1 } }

/-- `busy` with `n` commands waiting. -/
def busyWith (n : Nat) : State := { busy with commands := List.replicate n ⟨9#8, 0x01#8, 2#8, []⟩ }

theorem witness_CommandsWait :
    (busyWith 3).plant.link = .up ∧ (busyWith 3).plant.rx = none ∧ (busyWith 3).commands.length < 4 ∧
      (busyWith 3).executing.isSome = true := by decide
theorem witness_CommandsAreRefusedFull :
    (busyWith 4).plant.link = .up ∧ (busyWith 4).plant.rx = none ∧ (busyWith 4).commands.length = 4 := by decide
theorem witness_CommandsWait_no_slot :
    ({ running with plant := { upPort with reserved := 6 } } : State).commands.length < 4 ∧
      6 ≤ ({ running with plant := { upPort with reserved := 6 } } : State).plant.slots := by decide
/-- A free command unit with none waiting, and one with 3 waiting; a payload one byte short of a code and a tag. -/
theorem witness_CommandIsTakenAtOnce :
    running.plant.link = .up ∧ running.plant.rx = none ∧ running.executing = none ∧ running.plant.slots < 6 ∧
      running.commands ++ [⟨9#8, 0x01#8, 1#8, []⟩] = ⟨9#8, 0x01#8, 1#8, []⟩ :: [] ∧
      ({ busyWith 3 with executing := none } : State).commands.length < 4 ∧
      ({ busyWith 3 with executing := none } : State).plant.slots < 6 ∧ ([0x01#8] : List Byte).length < 2 := by decide

/-- Full slots at an answer, a reservation emptied, and a command that waits behind with the last slot free. -/
theorem witness_AnswerFillsItsSlot :
    busy.executing.isSome = true ∧ busy.commands = [] ∧ busy.plant.link = .up ∧ 0 < busy.plant.reserved ∧
      busy.plant.slots ≤ 6 ∧ running.executing = none := by decide
/-- A reservation on a port that is not UP, and a waiting command behind an answer that leaves no slot free. -/
theorem witness_AnswerIsLost_not_up :
    ({ busy with plant := { link := .offer, reserved := 1 } } : State).executing.isSome = true ∧
      ({ busy with plant := { link := .offer, reserved := 1 } } : State).plant.slots ≤ 6 ∧
      ({ link := .offer, reserved := 1 } : Port).reserved ≠ 0 := by decide
theorem witness_TheNextGoesOnWaiting :
    ({ busyWith 1 with plant := { upPort with reserved := 6 } } : State).plant.slots ≤ 6 ∧
      6 ≤ ({ upPort with reserved := 5, localQueue := [⟨9#8, 254#8, 6#8, [0x01#8, 1#8, 0#8]⟩] } : Port).slots := by decide
theorem witness_AnswerIsLost :
    ({ busy with plant := {} } : State).executing.isSome = true ∧ ({ busy with plant := {} } : State).commands = [] ∧
      ({ busy with plant := {} } : State).plant.reserved = 0 := by decide
theorem witness_TheNextIsTaken :
    (busyWith 1).executing.isSome = true ∧ (busyWith 1).commands = [⟨9#8, 0x01#8, 2#8, []⟩] ∧
      0 < (busyWith 1).plant.reserved ∧ (busyWith 1).plant.slots < 6 := by decide

/-- What the statements about station commands ask of the state: the command is taken, and storage holds no error. -/
theorem witness_free_and_sound : running.free ∧ running.sound ∧ halted.free ∧ halted.sound ∧ idle.free ∧ idle.sound := by
  unfold State.free State.sound
  decide
theorem witness_free_passing : (plantOf .pass {}).free ∧ (plantOf .pass {}).run = .pass := by
  unfold State.free
  decide

/-- ReadingCommandsAnswer: an account past the last, the greatest one, and a code outside the index. -/
theorem witness_ReadingCommandsAnswer :
    running.free ∧ 12 ≤ (12#8 : Byte).toNat ∧ 12 ≤ (255#8 : Byte).toNat ∧ (0x06#8 : Byte).toNat ∉ commandCodes := by
  unfold State.free
  decide

theorem witness_AccountsAndStreamsRead :
    running.free ∧ running.sound ∧ 4 ≤ (4#8 : Byte).toNat ∧ 8 ≤ (8#8 : Byte).toNat ∧ 48 ≤ (48#8 : Byte).toNat := by
  unfold State.free State.sound
  decide

/-- RunStateCommands: each of its clauses. -/
theorem witness_RunStateCommands_taken :
    idle.free ∧ idle.sound ∧ idle.run = .idle ∧ halted.run = .halt ∧ ∃ f, (idle.furnaceCfg f).defined = true := by
  unfold State.free State.sound
  decide
theorem witness_RunStateCommands_refused :
    State.reset.free ∧ State.reset.sound ∧ State.reset.run ≠ .run ∧
      ∀ f, (State.reset.furnaceCfg f).defined = false := by
  unfold State.free State.sound
  decide
theorem witness_RunStateCommands_in_run : running.free ∧ running.sound ∧ running.run = .run := by
  unfold State.free State.sound
  decide

/-- AccountingClear: clra in HALT, isol on in RUN, and clra refused in RUN. -/
theorem witness_AccountingClear :
    halted.free ∧ halted.run ≠ .run ∧ (plantOf .pass {}).free ∧ (plantOf .pass {}).run ≠ .run ∧ running.free ∧
      running.run = .run := by
  unfold State.free
  decide

theorem witness_IsolateOff :
    (plantOf .pass {}).free ∧ (plantOf .pass {}).run = .pass ∧ idle.free ∧ idle.run ≠ .pass ∧ idle.assigned 0 = true ∧
      2 ≤ (2#8 : Byte).toNat := by
  unfold State.free
  decide

/-- FurnaceLoads: F0 held by its line, and F1 defined anew with every field at its bound. -/
theorem witness_FurnaceLoads_held :
    idle.free ∧ idle.sound ∧ ({} : FurnaceConfig).InRange ∧ (idle.furnaceCfg 0).defined = true ∧
      ({} : FurnaceConfig).defined = false ∧ idle.linesOf 0 ≠ [] := by
  unfold State.free State.sound FurnaceConfig.InRange
  decide
theorem witness_FurnaceLoads_loads :
    running.free ∧ running.sound ∧ (running.furnaceCfg 1).defined = false ∧
      ({ defined := true, markSource := 254, length := 1440, offset := 1439, blanking := 120, lowMass := cap32,
         bandLow := cap32, bandHigh := cap32 } : FurnaceConfig).InRange := by
  unfold State.free State.sound FurnaceConfig.InRange
  decide
/-- FurnaceLoads: F1 DEFINED with its REV input tracked and in blanking, to be set UNUSED; each field just past a range. -/
theorem witness_FurnaceLoads_unused :
    let s : State := { idle with
      furnaces := vset furnaces 1 { defined := true }
      furnaceInputs := vset idle.furnaceInputs 1 { rev := some { level := false }, blankingEnd := some 1000001 } }
    s.free ∧ s.sound ∧ (s.furnaceCfg 1).defined = true ∧ s.linesOf 1 = [] ∧ s.targeted (.furnace 1) = false ∧
      (s.group 1).closing = none ∧ ({} : FurnaceConfig).InRange := by
  unfold State.free State.sound FurnaceConfig.InRange
  decide +kernel
theorem witness_FurnaceLoads_badarg :
    3 < (4#8 : Byte).toNat ∧ 1 < (2#8 : Byte).toNat ∧ 2 < (3#8 : Byte).toNat ∧ 254 < (255#8 : Byte).toNat ∧
      (0#16 : BitVec 16).toNat < 1 ∧ 1440 < (1441#16 : BitVec 16).toNat ∧ 1439 < (1440#16 : BitVec 16).toNat ∧
      120 < (121#8 : Byte).toNat ∧ (0#32 : BitVec 32).toNat < (1#32 : BitVec 32).toNat := by decide

/-- LineLoads: an UNUSED furnace named, a change outside IDLE, and a load that is taken, with every field at a bound. -/
theorem witness_LineLoads_badarg :
    idle.free ∧ idle.sound ∧ ({ furnace := some 1 } : LineConfig).InRange ∧ (idle.furnaceCfg 1).defined = false := by
  unfold State.free State.sound LineConfig.InRange
  decide
theorem witness_LineLoads_out_of_range :
    7 < (8#8 : Byte).toNat ∧ (3 < (254#8 : Byte).toNat ∧ (254#8 : Byte) ≠ 255#8) ∧ (9#16 : BitVec 16).toNat < 10 ∧
      1000 < (1001#16 : BitVec 16).toNat ∧ 600 < (601#16 : BitVec 16).toNat ∧ 1 < (2#8 : Byte).toNat := by decide
theorem witness_LineLoads_held :
    halted.free ∧ halted.sound ∧ ({} : LineConfig).InRange ∧ (halted.lineCfg 0).furnace ≠ none ∧ halted.run ≠ .idle := by
  unfold State.free State.sound LineConfig.InRange
  decide
theorem witness_LineLoads_loads :
    idle.free ∧ idle.sound ∧ (idle.furnaceCfg 0).defined = true ∧ (idle.lineCfg 1).furnace = none ∧
      ({ furnace := some 0, spacing := 1000, timeout := 600, gobLow := 65535, gobHigh := 65535 } : LineConfig).InRange := by
  unfold State.free State.sound LineConfig.InRange
  decide
/-- L0 RUNNING since a cut 30 s ago, in IDLE, with F1 DEFINED beside F0. -/
def moving : State := { idle.setLineInput 0 { running := true, lastCut := some 970000, stopAt := some 1000000 } with
  furnaces := vset furnaces 1 { defined := true } }

/-- LineLoads: a move to F1, a changed timeout that expires now, and one that expires later. -/
theorem witness_LineLoads_stays_in_use :
    moving.free ∧ moving.sound ∧ moving.run = .idle ∧ (moving.lineCfg 0).furnace = some 0 ∧
      ({ moving.lineCfg 0 with furnace := some 1 } : LineConfig).InRange ∧ (moving.furnaceCfg 1).defined = true ∧
      ({ moving.lineCfg 0 with timeout := 1 } : LineConfig).InRange ∧ (moving.lineCfg 0).timeout = 30 ∧
      (moving.lineInput 0).running = true ∧ (moving.lineInput 0).lastCut = some 970000 ∧
      970000 + 29 * 1000 ≤ moving.clock.elapsed ∧ ¬970000 + 31 * 1000 ≤ moving.clock.elapsed := by
  unfold State.free State.sound LineConfig.InRange
  decide

/-- JobLoads: the band's two ends, a weight past it, and an UNUSED line. -/
theorem witness_JobLoads :
    running.free ∧ running.sound ∧ (running.lineCfg 0).gobLow ≤ (1#16 : BitVec 16).toNat ∧
      (5000#16 : BitVec 16).toNat ≤ (running.lineCfg 0).gobHigh ∧ ¬(5001#16 : BitVec 16).toNat ≤ (running.lineCfg 0).gobHigh ∧
      running.assigned 0 = true ∧ running.assigned 7 = false := by
  unfold State.free State.sound
  decide

/-- StreamLoads: a check that fails, an enabled stream, and an entry that loads. -/
theorem witness_StreamLoads_badarg :
    idle.free ∧ idle.sound ∧ { gasMeter with modulus := 1 }.Fits ∧ gasMeter.formats.total32 = true ∧
      { gasMeter with interval := 20, hold := 1 }.Fits ∧ ¬3 * 20 < 1 * 60 := by
  unfold State.free State.sound StreamEntry.Fits
  decide +kernel
theorem witness_StreamLoads_enabled :
    running.free ∧ running.sound ∧ gasMeter.Fits ∧ running.enabled 0 = true := by
  unfold State.free State.sound StreamEntry.Fits
  decide +kernel
theorem witness_StreamLoads_loads :
    idle.free ∧ idle.sound ∧ { gasMeter with modulus := 4294967296 }.Fits ∧ idle.enabled 0 = false ∧
      1 ≤ gasMeter.source.toNat ∧ gasMeter.source.toNat ≤ 254 ∧ gasMeter.channel ≤ 15 ∧ 1 ≤ gasMeter.interval ∧
      gasMeter.interval ≤ 3600 ∧ 1 ≤ gasMeter.hold ∧ gasMeter.hold ≤ 1440 ∧ gasMeter.category = .energy ∧
      gasMeter.target = .furnace 0 ∧ (idle.furnaceCfg 0).defined = true ∧ gasMeter.formats.value = false ∧
      gasMeter.formats.total32 = true ∧ 1 ≤ gasMeter.factor ∧ 1 ≤ gasMeter.maxRate ∧ gasMeter.sensitive = false ∧
      3 * gasMeter.interval < gasMeter.hold * 60 ∧ ∀ j, j ≠ 0 → idle.stream j = none := by
  unfold State.free State.sound StreamEntry.Fits
  decide +kernel

/-- StreamEnables: OFF with its target in use, enabled, with its target out of use, and empty; past the last number. -/
theorem witness_StreamEnables :
    idle.free ∧ idle.sound ∧ idle.stream 0 = some { entry := gasMeter } ∧
      idle.targetSuits gasMeter.category gasMeter.target = true ∧
      running.stream 0 = some { entry := gasMeter, live := liveMeter } ∧ liveMeter.state ≠ .off ∧
      idle.targetSuits gasMeter.category (.furnace 1) = false ∧ idle.stream 47 = none ∧
      running.targetSuits gasMeter.category gasMeter.target = true ∧ 48 ≤ (48#8 : Byte).toNat ∧ 2 ≤ (2#8 : Byte).toNat := by
  unfold State.free State.sound
  decide +kernel

/-- UnboundPairIsHeard: S0's pair while it is OFF, and a pair of no entry, in a sample and in a hello alike. -/
theorem witness_UnboundPairIsHeard :
    halted.field.link = .up ∧ halted.run ≠ .pass ∧ halted.findStream 17#8 2 = some 0 ∧ halted.enabled 0 = false ∧
      halted.findStream 17#8 3 = none := by decide +kernel
theorem witness_in_pass : (plantOf .pass liveMeter).run = .pass ∧ (plantOf .pass liveMeter).field.link = .up := by decide

/-- HeloSelectsAFormat: S0 in each of its states, with and without adopt-only; 7 names a format of the gas meter, 14 none;
a free slot and none. -/
theorem witness_HeloSelectsAFormat :
    ∀ v ∈ [waitMeter, { waitMeter with adoptOnly := true }, selectMeter, liveMeter, staleMeter,
        { staleMeter with state := .lost, adoptOnly := true }],
      (plantOf .run v).field.link = .up ∧ (plantOf .run v).run ≠ .pass ∧ (plantOf .run v).sound ∧
        (plantOf .run v).findStream 17#8 ((2#8 : Byte).toNat % 16) = some 0 ∧
        (plantOf .run v).stream 0 = some { entry := gasMeter, live := v } ∧ v.state ≠ .off := by
  unfold State.sound
  decide +kernel
theorem witness_HeloFormats :
    ([] : List Byte).length ≤ 246 ∧ gasMeter.category ≠ .gobw ∧
      ((7#8 : Byte).getLsbD 0 && gasMeter.formats.total32) = true ∧
      ((14#8 : Byte).getLsbD 0 && gasMeter.formats.total32) = false ∧ gasMeter.formats.step = false ∧
      gasMeter.formats.total16 = false ∧ running.field.slots < 4 ∧
      ¬({ upPort with localQueue := List.replicate 4 ⟨17#8, 254#8, 3#8, []⟩ } : Port).slots < 4 := by decide

theorem witness_SampleBindsAWaitingStream :
    (plantOf .run waitMeter).sound ∧ (plantOf .run waitMeter).field.link = .up ∧ (plantOf .run waitMeter).run ≠ .pass ∧
      waitMeter.state = .wait ∧ (be 4 7).length = 4 ∧ (0x12#8 : Byte).toNat / 16 = 1 ∧
      (plantOf .run waitMeter).findStream 17#8 ((0x12#8 : Byte).toNat % 16) = some 0 ∧
      (plantOf .run waitMeter).stream 0 = some { entry := gasMeter, live := waitMeter } ∧
      gasMeter.formats.total32 = true ∧ gasMeter.category ≠ .gobw := by
  unfold State.sound
  decide +kernel
/-- S0 in each state in which a sample gives it a base. -/
theorem witness_SampleBinds_states :
    ∀ v ∈ [waitMeter, selectMeter, { staleMeter with base := none }, { staleMeter with state := .lost, base := none }],
      (plantOf .run v).sound ∧ (plantOf .run v).field.link = .up ∧ (plantOf .run v).run ≠ .pass ∧
        (plantOf .run v).findStream 17#8 ((0x12#8 : Byte).toNat % 16) = some 0 ∧
        (plantOf .run v).stream 0 = some { entry := gasMeter, live := v } ∧ gasMeter.formats.total32 = true ∧
        (v.state = .select → v.format = some .total32) := by
  unfold State.sound
  decide +kernel
/-- The code and the length of each format's sample, long and short; one that the gas meter does not accept; and gob
values at the ends of L0's band and past them, for S1 in WAIT. -/
theorem witness_SampleBinds_formats :
    ((0x02#8 : Byte).toNat / 16 = 0 ∧ (be 4 7).length = 4) ∧ ((0x22#8 : Byte).toNat / 16 = 2 ∧ (be 3 7).length = 3) ∧
      ((0x32#8 : Byte).toNat / 16 = 3 ∧ (be 2 7).length = 2) ∧ ((0x40#8 : Byte).toNat / 16 = 4 ∧ (be 2 7).length = 2) ∧
      gasMeter.formats.step = false ∧ (gobbing waitMeter).sound ∧
      (gobbing waitMeter).findStream 18#8 ((0x40#8 : Byte).toNat % 16) = some 1 ∧ gobMeter.formats.value = true ∧
      ((gobbing waitMeter).lineCfg 0).gobLow ≤ beNat (be 2 1) ∧ beNat (be 2 5000) ≤ ((gobbing waitMeter).lineCfg 0).gobHigh ∧
      ¬((gobbing waitMeter).lineCfg 0).gobLow ≤ beNat (be 2 0) ∧
      ¬beNat (be 2 5001) ≤ ((gobbing waitMeter).lineCfg 0).gobHigh := by
  unfold State.sound
  decide +kernel
/-- A 2-byte short sample and a sample of no format, taken by S0 in LIVE, STALE and LOST with a base. -/
theorem witness_SampleIsAFormatFault :
    ∀ v ∈ [liveMeter, staleMeter, { staleMeter with state := .lost }],
      (plantOf .run v).field.link = .up ∧ (be 2 7).length ≤ 247 ∧ (plantOf .run v).run ≠ .pass ∧ (plantOf .run v).sound ∧
        (plantOf .run v).findStream 17#8 ((0x02#8 : Byte).toNat % 16) = some 0 ∧ (0x02#8 : Byte).toNat / 16 = 0 ∧
        (plantOf .run v).stream 0 = some { entry := gasMeter, live := v } ∧ v.base = some 99999200 ∧
        v.lastGood = some 880000 ∧ v.format ≠ some .total16 := by
  unfold State.sound
  decide +kernel

/-- SampleBooksItsDeltaOrJumps: the delta at the limit of 2,400 books, and one more jumps. -/
theorem witness_SampleBooksItsDelta :
    running.sound ∧ running.field.link = .up ∧ (be 4 1600).length = 4 ∧ (0x12#8 : Byte).toNat / 16 = 1 ∧
      running.run = .run ∧ running.findStream 17#8 ((0x12#8 : Byte).toNat % 16) = some 0 ∧
      running.stream 0 = some { entry := gasMeter, live := liveMeter } ∧ liveMeter.state = .live ∧
      liveMeter.format = some .total32 ∧ liveMeter.base = some 99999200 ∧ liveMeter.lastGood = some 880000 ∧
      gasMeter.category = .energy ∧
      wrapDelta 100000000 99999200 (beNat (be 4 1600) % 100000000) ≤
        20 * max 1 ((1000000 - 880000 + 999) / 1000) * (if running.blanked gasMeter then 4 else 1) := by
  unfold State.sound
  decide +kernel
theorem witness_SampleJumps :
    running.sound ∧ running.field.link = .up ∧ (be 4 1601).length = 4 ∧ (0x12#8 : Byte).toNat / 16 = 1 ∧
      running.run ≠ .pass ∧ running.findStream 17#8 ((0x12#8 : Byte).toNat % 16) = some 0 ∧
      running.stream 0 = some { entry := gasMeter, live := liveMeter } ∧ liveMeter.state = .live ∧
      liveMeter.format = some .total32 ∧ liveMeter.base = some 99999200 ∧ liveMeter.lastGood = some 880000 ∧
      gasMeter.category ≠ .gobw ∧
      20 * max 1 ((1000000 - 880000 + 999) / 1000) * (if running.blanked gasMeter then 4 else 1) <
        wrapDelta 100000000 99999200 (beNat (be 4 1601) % 100000000) := by
  unfold State.sound
  decide +kernel
/-- What those two samples count, and a TOTAL16 sample over its rollover. -/
theorem witness_SampleMeasures :
    gasMeter.Measures liveMeter 99999200 ((0x12#8 : Byte).toNat / 16) (be 4 1600) .total32 1600 2400 0 none ∧
      gasMeter.Measures liveMeter 99999200 ((0x12#8 : Byte).toNat / 16) (be 4 1601) .total32 1601 2401 0 none ∧
      gasMeter.Measures liveMeter 65000 ((0x32#8 : Byte).toNat / 16) (be 2 464) .total16 464 1000 0 none :=
  ⟨.inl (by decide), .inl (by decide), .inr (.inl (by decide))⟩
/-- S0 LIVE in IDLE and in HALT, and STALE and LOST in RUN. -/
theorem witness_SampleBooksOrJumps_states :
    ∀ x ∈ [(RunState.idle, liveMeter), (.halt, liveMeter), (.run, staleMeter), (.run, { staleMeter with state := .lost })],
      (plantOf x.1 x.2).sound ∧ (plantOf x.1 x.2).field.link = .up ∧ (plantOf x.1 x.2).run ≠ .pass ∧
        (plantOf x.1 x.2).findStream 17#8 ((0x12#8 : Byte).toNat % 16) = some 0 ∧
        (plantOf x.1 x.2).stream 0 = some { entry := gasMeter, live := x.2 } ∧ x.2.format = some .total32 ∧
        x.2.base = some 99999200 ∧ x.2.lastGood = some 880000 ∧ (plantOf x.1 x.2).blanked gasMeter = false := by
  unfold State.sound
  decide +kernel
/-- S0 LIVE as a meter of the other counting categories. -/
theorem witness_SampleBooks_categories :
    ∀ c ∈ [Category.credit, .charge, .cullet],
      let s := running.setStream 0 (some { entry := { gasMeter with category := c }, live := liveMeter })
      s.sound ∧ s.run = .run ∧ s.findStream 17#8 ((0x12#8 : Byte).toNat % 16) = some 0 ∧
        s.stream 0 = some { entry := { gasMeter with category := c }, live := liveMeter } ∧
        s.blanked { gasMeter with category := c } = false := by
  unfold State.sound
  decide +kernel
/-- A STEP meter with the last increment 900 at sequence 41, as S0, 120 s after its last good sample. -/
def stepMeter : StreamEntry := { gasMeter with formats := ⟨false, true, false, false⟩ }
def stepLive : StreamLive := { liveMeter with format := some .step, base := some 900, lastSeq := some 41 }
def stepping (v : StreamLive) : State := running.setStream 0 (some { entry := stepMeter, live := v })

/-- A repeat in LIVE, STALE and LOST. -/
theorem witness_StepIsARepeat :
    ∀ v ∈ [stepLive, { stepLive with state := .stale }, { stepLive with state := .lost }],
      (stepping v).sound ∧ (stepping v).field.link = .up ∧ (stepping v).run ≠ .pass ∧ (0x22#8 : Byte).toNat / 16 = 2 ∧
        (stepping v).findStream 17#8 ((0x22#8 : Byte).toNat % 16) = some 0 ∧
        (stepping v).stream 0 = some { entry := stepMeter, live := v } ∧ v.format = some .step ∧ v.base = some 900 ∧
        v.lastSeq = some (41#8 : Byte).toNat ∧ stepMeter.category ≠ .gobw := by
  unfold State.sound
  decide +kernel
/-- After a gap of 2 frames an increment of 600 is at the limit of 2,400 and 601 past it; 2,400 is at it without a gap. -/
theorem witness_StepBooksOrJumps :
    (stepping stepLive).sound ∧ (stepping stepLive).run = .run ∧ stepLive.state = .live ∧
      stepLive.lastGood = some 880000 ∧ stepMeter.category = .energy ∧
      stepMeter.Measures stepLive 900 ((0x22#8 : Byte).toNat / 16) (be 2 600 ++ be 1 44) .step 600 600 2 (some 44) ∧
      stepMeter.Measures stepLive 900 ((0x22#8 : Byte).toNat / 16) (be 2 601 ++ be 1 44) .step 601 601 2 (some 44) ∧
      stepMeter.Measures stepLive 900 ((0x22#8 : Byte).toNat / 16) (be 2 2400 ++ be 1 42) .step 2400 2400 0 (some 42) ∧
      600 + 2 * 900 ≤ 20 * max 1 ((1000000 - 880000 + 999) / 1000) * 1 ∧
      20 * max 1 ((1000000 - 880000 + 999) / 1000) * 1 < 601 + 2 * 900 ∧
      (stepping stepLive).blanked stepMeter = false := by
  unfold State.sound
  refine ⟨by decide, by decide, by decide, by decide, by decide, .inr (.inr ⟨rfl, by decide, ?_⟩),
    .inr (.inr ⟨rfl, by decide, ?_⟩), .inr (.inr ⟨rfl, by decide, ?_⟩), by decide, by decide, by decide +kernel⟩
  · exact ⟨0x02#8, 0x58#8, 44#8, 41, by decide⟩
  · exact ⟨0x02#8, 0x59#8, 44#8, 41, by decide⟩
  · exact ⟨0x09#8, 0x60#8, 42#8, 41, by decide⟩

/-- SelectAndHoldTimersExpire: a select timer just due, the same 1 ms before, and a hold timer just due. -/
theorem witness_SelectTimerExpires :
    (plantOf .run selectMeter).sound ∧ (plantOf .run selectMeter).run ≠ .pass ∧ selectMeter.state = .select ∧
      (plantOf .run selectMeter).stream 0 = some { entry := gasMeter, live := selectMeter } ∧
      selectMeter.selectAt = some 1000000 ∧ 1000000 ≤ (plantOf .run selectMeter).clock.elapsed ∧
      (plantOf .run { selectMeter with selectAt := some 1000001 }).clock.elapsed < 1000001 := by
  unfold State.sound
  decide +kernel
theorem witness_HoldTimerExpires :
    (plantOf .run staleMeter).sound ∧ (plantOf .run staleMeter).run ≠ .pass ∧
      (plantOf .run staleMeter).stream 0 = some { entry := gasMeter, live := staleMeter } ∧
      staleMeter.state = .stale ∧ staleMeter.holdAt = some 1000000 ∧
      1000000 ≤ (plantOf .run staleMeter).clock.elapsed := by
  unfold State.sound
  decide +kernel

/-- SilenceIsEstimated: a stale timer and an interval timer just due. -/
theorem witness_StaleTimerEstimates :
    running.sound ∧ running.run = .run ∧ running.stream 0 = some { entry := gasMeter, live := liveMeter } ∧
      liveMeter.state = .live ∧ liveMeter.staleAt = some 1000000 ∧ 1000000 ≤ running.clock.elapsed ∧ liveMeter.lastGood = some 880000 ∧
      gasMeter.category = .energy ∧ running.blanked gasMeter = false := by
  unfold State.sound
  decide +kernel
theorem witness_IntervalTimerEstimates :
    (plantOf .run staleMeter).sound ∧ (plantOf .run staleMeter).run = .run ∧
      (plantOf .run staleMeter).stream 0 = some { entry := gasMeter, live := staleMeter } ∧ staleMeter.state = .stale ∧
      staleMeter.intervalAt = some 1000000 ∧
      1000000 ≤ (plantOf .run staleMeter).clock.elapsed ∧ gasMeter.category = .energy := by
  unfold State.sound
  decide +kernel
/-- The stale and the interval timer of S0 due in HALT, and as a meter of the other categories, in RUN. -/
theorem witness_SilenceOfEveryCategory :
    (plantOf .halt liveMeter).sound ∧ (plantOf .halt staleMeter).run ≠ .pass ∧
      (plantOf .halt staleMeter).stream 0 = some { entry := gasMeter, live := staleMeter } ∧
      ∀ c ∈ [Category.credit, .charge, .cullet, .gobw],
        (running.setStream 0 (some { entry := { gasMeter with category := c }, live := liveMeter })).blanked
          { gasMeter with category := c } = false := by
  unfold State.sound
  decide +kernel
/-- A reversal-sensitive meter of F0 in its blanking: its stale timer due, and, deferred, its hold timer due. -/
def blankedMeter (v : StreamLive) : State :=
  (running.setStream 0 (some { entry := { gasMeter with sensitive := true }, live := v })).setFurnaceInput 0
    { blankingEnd := some 1000001 }
theorem witness_SilenceIsDeferred :
    ∀ v ∈ [liveMeter, { liveMeter with deferral := true, staleAt := none, holdAt := some 1000000 }],
      (blankedMeter v).sound ∧ (blankedMeter v).run ≠ .pass ∧ v.state = .live ∧ v.lastGood = some 880000 ∧
        (blankedMeter v).stream 0 = some { entry := { gasMeter with sensitive := true }, live := v } ∧
        1000000 ≤ (blankedMeter v).clock.elapsed ∧ (v.staleAt = some 1000000 ∨ v.holdAt = some 1000000) ∧
        ((blankedMeter v).furnaceInput 0).blankingEnd.isSome = true := by
  unfold State.sound
  decide +kernel
/-- A return from STALE in TOTAL32, at the limit, and one from LOST in STEP after a gap. -/
theorem witness_SilenceIsReconciled :
    (plantOf .run staleMeter).sound ∧ (plantOf .run staleMeter).run ≠ .pass ∧
      (plantOf .run staleMeter).findStream 17#8 ((0x12#8 : Byte).toNat % 16) = some 0 ∧
      staleMeter.format = some .total32 ∧ staleMeter.base = some 99999200 ∧ staleMeter.lastGood = some 880000 ∧
      gasMeter.Measures staleMeter 99999200 ((0x12#8 : Byte).toNat / 16) (be 4 1600) .total32 1600 2400 0 none ∧
      2400 + 0 * 99999200 ≤ 20 * max 1 ((1000000 - 880000 + 999) / 1000) * 1 ∧
      (plantOf .run staleMeter).blanked gasMeter = false ∧
      stepMeter.Measures { stepLive with state := .lost } 900 ((0x22#8 : Byte).toNat / 16) (be 2 600 ++ be 1 44) .step 600
        600 2 (some 44) := by
  unfold State.sound
  refine ⟨by decide, by decide, by decide +kernel, by decide, by decide, by decide, .inl (by decide), by decide,
    by decide +kernel, .inr (.inr ⟨rfl, by decide, 0x02#8, 0x58#8, 44#8, 41, by decide⟩)⟩

/-- CutIsAcceptedOrCountedAsBounce: a first cut, one just at the spacing, and one 1 ms closer. -/
theorem witness_CutIsAccepted :
    (edges running).sound ∧ (edges running).lineTracked 0 = true ∧ (edges running).gobStreams 0 = [] ∧
      ((edges running).lineInput 0).cut = some { level := false, since := some 999999 } ∧
      999999 + 1 ≤ (edges running).clock.elapsed ∧ ((edges running).lineInput 0).lastCut = none ∧
      999850 + ((edges running).lineCfg 0).spacing ≤ (edges running).clock.elapsed := by
  unfold State.sound
  decide +kernel

/-- The edges of L0 149 ms after a cut. -/
def bouncing : State :=
  (edges running).setLineInput 0 { (edges running).lineInput 0 with lastCut := some 999851, lastReject := some 999996 }

theorem witness_CutIsABounce :
    bouncing.sound ∧ bouncing.lineTracked 0 = true ∧
      (bouncing.lineInput 0).cut = some { level := false, since := some 999999 } ∧ 999999 + 1 ≤ bouncing.clock.elapsed ∧
      (bouncing.lineInput 0).lastCut = some 999851 ∧ bouncing.clock.elapsed < 999851 + (bouncing.lineCfg 0).spacing := by
  unfold State.sound
  decide +kernel
/-- A cut of L0 in RUN with its GOBW stream S1 STALE, and gob values at the band's ends and past them. -/
def gobLive : StreamLive := { state := .live, format := some .value, base := some 100 }
theorem witness_CutAsksForAWeight :
    (gobbing { gobLive with state := .stale }).sound ∧ (gobbing { gobLive with state := .stale }).run = .run ∧
      (gobbing { gobLive with state := .stale }).lineTracked 0 = true ∧
      ((gobbing { gobLive with state := .stale }).lineInput 0).cut = some { level := false, since := some 999999 } ∧
      ((gobbing { gobLive with state := .stale }).lineInput 0).lastCut = none ∧
      (gobbing { gobLive with state := .stale }).stream 1 =
        some { entry := gobMeter, live := { gobLive with state := .stale } } ∧
      gobMeter.category = .gobw ∧ gobMeter.target = .line 0 := by
  unfold State.sound
  decide +kernel
theorem witness_GobValueIsTaken :
    (gobbing gobLive).sound ∧ (gobbing gobLive).field.link = .up ∧ (0x40#8 : Byte).toNat / 16 = 4 ∧
      (gobbing gobLive).findStream 18#8 ((0x40#8 : Byte).toNat % 16) = some 1 ∧
      (gobbing gobLive).stream 1 = some { entry := gobMeter, live := gobLive } ∧
      ((gobbing gobLive).lineCfg 0).gobLow = (0x00#8 : Byte).toNat * 256 + (0x01#8 : Byte).toNat ∧
      ((gobbing gobLive).lineCfg 0).gobHigh = (0x13#8 : Byte).toNat * 256 + (0x88#8 : Byte).toNat ∧
      ¬(0x13#8 : Byte).toNat * 256 + (0x89#8 : Byte).toNat ≤ ((gobbing gobLive).lineCfg 0).gobHigh := by
  unfold State.sound
  decide +kernel

/-- RejectIsJudged and QuietLevelChanges: due changes on the tracked inputs of L0. -/
theorem witness_RejectIsJudged :
    (edges running).sound ∧ (edges running).lineTracked 0 = true ∧
      ((edges running).lineInput 0).rej = some { level := false, since := some 999999 } ∧
      999999 + 1 ≤ (edges running).clock.elapsed ∧ (∀ x, ((edges running).lineInput 0).lastReject = some x → x + 5 ≤ (edges running).clock.elapsed) ∧
      (bouncing.lineInput 0).rej = some { level := false, since := some 999999 } ∧
      (bouncing.lineInput 0).lastReject = some 999996 ∧ ¬999996 + 5 ≤ bouncing.clock.elapsed := by
  unfold State.sound
  decide +kernel
theorem witness_QuietLevelChanges :
    (edges running).lineTracked 0 = true ∧
      ((edges running).lineInput 0).div = some { level := false, since := some 999999 } ∧
      (((edges running).setLineInput 0 { (edges running).lineInput 0 with
        cut := some { level := true, since := some 999999 }, rej := some { level := true, since := some 999999 } }).lineInput
        0).cut = some { level := true, since := some 999999 } ∧ 999999 + 1 ≤ (edges running).clock.elapsed := by
  decide +kernel

/-- A RUNNING line L0 with its stop timer due, a second mark due, and blanking of F0 that is due to end. -/
def timing : State := { running with
  clock := { running.clock with secondDue := true, wrapDue := true }
  lineInputs := vset running.lineInputs 0 { running := true, stopAt := some 1000000 }
  furnaceInputs := vset running.furnaceInputs 0 { blankingEnd := some 1000000 } }

theorem witness_StopTimerAndSecondMark :
    timing.sound ∧ timing.run ≠ .pass ∧ (timing.lineInput 0).running = true ∧
      (timing.lineInput 0).stopAt = some 1000000 ∧ 1000000 ≤ timing.clock.elapsed ∧ timing.clock.secondDue = true := by
  unfold State.sound
  decide +kernel
theorem witness_BlankingStarts :
    (edges running).sound ∧ (edges running).furnaceTracked 0 = true ∧
      ((edges running).furnaceInput 0).rev = some { level := false, since := some 999900 } ∧
      999900 + 100 ≤ (edges running).clock.elapsed ∧ 0 < ((edges running).furnaceCfg 0).blanking := by
  unfold State.sound
  decide +kernel
theorem witness_BlankingEnds :
    timing.sound ∧ timing.run ≠ .pass ∧ (timing.furnaceInput 0).blankingEnd = some 1000000 ∧
      1000000 ≤ timing.clock.elapsed := by
  unfold State.sound
  decide +kernel
/-- A reversal of F0 with blanking time 0 in a blanking in progress, and a stream that waits for its end. -/
def lifting : State :=
  { (edges running).setFurnaceInput 0 { (edges running).furnaceInput 0 with blankingEnd := some 1000001 } with
    furnaces := vset furnaces 0 { vget furnaces 0 with blanking := 0 }
    streams := vset running.streams 0 (some { entry := { gasMeter with sensitive := true }
                                              live := { liveMeter with deferral := true, staleAt := none } }) }
theorem witness_BlankingIsLifted :
    lifting.sound ∧ lifting.furnaceTracked 0 = true ∧
      (lifting.furnaceInput 0).rev = some { level := false, since := some 999900 } ∧
      999900 + 100 ≤ lifting.clock.elapsed ∧ (lifting.furnaceCfg 0).blanking = 0 ∧
      (lifting.furnaceInput 0).blankingEnd.isSome = true ∧
      (lifting.stream 0).map (fun st => (st.live.state, st.live.deferral, st.entry.sensitive, st.entry.target)) =
        some (.live, true, true, .furnace 0) ∧ (edges running).stream 1 = none := by
  unfold State.sound
  decide +kernel

/-- SwapFillsTheClosingSet: the last period number. -/
theorem witness_SwapFillsTheClosingSet :
    (running.setGroup 0 { period := 4294967295 }).sound ∧
      ((running.setGroup 0 { period := 4294967295 }).group 0).period ≤ 4294967295 ∧
      (running.lineCfg 0).furnace = some 0 ∧ (running.lineCfg 1).furnace ≠ some 0 ∧ halted.sound ∧ halted.run = .halt ∧
      (halted.group 0).period ≤ 4294967295 := by
  unfold State.sound
  decide +kernel

/-- ClosFollowsItsTable: the first number past the groups, the last group, and the states of its cases. -/
theorem witness_ClosFollowsItsTable :
    running.free ∧ 4 ≤ (4#8 : Byte).toNat ∧ (3 : Fin 4).val = (3#8 : Byte).toNat ∧ (running.furnaceCfg 3).defined = false ∧
      (running.furnaceCfg 0).defined = true ∧ (running.group 0).closing = none ∧
      (closingNow running false).free ∧ ((closingNow running false).group 0).closing.isSome = true ∧ idle.free ∧
      idle.run = .idle := by
  unfold State.free
  decide +kernel

/-- MarkIsJudgedPerGroup: a broadcast of F0's mark source that names F0 alone, in RUN, IDLE and CLOSING. -/
theorem witness_MarkIsJudgedPerGroup :
    (running.port .plant).link = .up ∧ running.sound ∧ running.run = .run ∧ (1#8 : Byte).getLsbD 0 = true ∧
      (running.furnaceCfg 0).defined = true ∧ (running.furnaceCfg 0).mode ≠ .timed ∧
      (running.furnaceCfg 0).markSource = (30#8 : Byte).toNat ∧ (running.group 0).closing = none ∧
      ((closingNow running false).group 0).closing.isSome = true ∧ idle.run = .idle := by
  unfold State.sound
  decide +kernel

/-- BoundaryEventsAndTheWrap: a boundary 1 s ahead, one just reached, and a wrap that is due. -/
theorem witness_BoundaryEventsAndTheWrap :
    running.sound ∧ (running.setBoundary 0 (some 101)).boundary 0 = some 101 ∧ running.clock.sec < 101 ∧
      (running.setBoundary 0 (some 100)).boundary 0 = some 100 ∧ 100 ≤ running.clock.sec ∧ timing.sound ∧
      timing.clock.wrapDue = true := by
  unfold State.sound
  decide +kernel
/-- An idle step with a second mark, a wrap, an end of blanking and a stop timer due, and the answer just due. -/
theorem witness_IdleStep :
    timing.pending = [] ∧ timing.commands = [] ∧ timing.clock.wrapDue = true ∧
      ({ busy with clock := { busy.clock with elapsed := 1000002 } } : State).pending = [] ∧
      ({ busy with clock := { busy.clock with elapsed := 1000002 } } : State).commands = [] := by decide

/-- SetTimeJumps: 999 and 1000 ms; a second that reaches F0's boundary, and one before it, in RUN, IDLE and CLOSING. -/
theorem witness_SetTimeJumps :
    running.free ∧ running.sound ∧ (999#16 : BitVec 16).toNat ≤ 999 ∧ 999 < (1000#16 : BitVec 16).toNat ∧
      running.boundary 0 = some 21600 ∧ 21600 ≤ (21600#32 : BitVec 32).toNat ∧ ¬21600 ≤ (21599#32 : BitVec 32).toNat ∧
      running.boundary 1 = none ∧ (running.group 0).closing = none ∧ (running.furnaceCfg 0).defined = true ∧
      (closingNow running false).free ∧ ((closingNow running false).group 0).closing.isSome = true ∧
      ¬(idle.run = .run ∨ idle.run = .halt) := by
  unfold State.free State.sound
  decide +kernel

/-- AdjustTimeChecksAndAdds: the ends of the range, a clock that is not set, plant time 0 and 1 ms below it. -/
theorem witness_AdjustTimeChecksAndAdds :
    running.free ∧ running.sound ∧ running.clock.timeSet = true ∧
      (BitVec.ofInt 32 (-86400001)).toInt < -86400000 ∧ ¬86400000 < (BitVec.ofInt 32 86400000).toInt ∧
      ((running.clock.sec * 1000 + running.clock.ms : Nat) : Int) + (BitVec.ofInt 32 (-100007)).toInt = 0 ∧
      ((running.clock.sec * 1000 + running.clock.ms : Nat) : Int) + (BitVec.ofInt 32 (-100008)).toInt < 0 ∧
      State.reset.free ∧ State.reset.sound ∧ State.reset.clock.timeSet = false := by
  unfold State.free State.sound
  decide +kernel
/-- An offset that just reaches F0's boundary at 21,600 s from 100.007 s, and one that stops 1 ms before it. -/
theorem witness_AdjustTimeReachesABoundary :
    running.boundary 0 = some 21600 ∧ (100007 + 21499993) / 1000 = 21600 ∧ (100007 + 21499992) / 1000 = 21599 ∧
      (BitVec.ofInt 32 21499993).toInt ≤ 86400000 ∧ (running.group 0).closing = none ∧
      ((closingNow running false).group 0).closing.isSome = true ∧ (closingNow running false).boundary 0 = some 21600 := by
  decide +kernel

/-- CompletionDeliversTheRecord: with and without the deferred flag. -/
theorem witness_CompletionDeliversTheRecord :
    (closingNow running false).sound ∧ ((closingNow running false).group 0).closing = some closingSet ∧
      ((closingNow running false).group 0).deferred = false ∧ (closingNow running false).records.length < 32 ∧
      (∀ r ∈ (closingNow running false).records, r.group = 0 → r.period < closingSet.period) ∧
      ((closingNow running true).group 0).deferred = true := by
  unfold State.sound
  decide +kernel
/-- A full queue of another group's records, a record of F0's group with the last period number before the wrap, a group
without a close, and a closing set whose furnace and line are out of band. -/
theorem witness_CompletionDiscards :
    (closingSet.period ≤ ({ record with period := 4294967295 } : GroupRecord).period ∧ record.group = 0) ∧
      32 ≤ ((List.replicate 32 { record with group := 1 }).filter fun x =>
        !decide (x.group = 0 ∧ closingSet.period ≤ x.period)).length ∧
      ({ closingNow running false with records := List.replicate 32 { record with group := 1 } } : State).sound ∧
      (running.group 1).closing = none := by
  unfold State.sound
  decide +kernel
/-- F0 out of band by its melt ratio and L0 by its pull ratio. -/
def outOfBand : ClosingSet := { closingSet with
  furnace := { base := { energy := ⟨5, 0, 0, 0, 0⟩ } }
  limits := ⟨0, 0, 0⟩
  lines := [{ line := 0, live := { formed := ⟨1000, 0⟩ }, limits := ⟨0, 0, 0⟩ }] }
theorem witness_CompletionOutOfBand :
    outOfBand.furnaceOut = true ∧ outOfBand.linesOut = [0] ∧ (running.setGroup 0 { closing := some outOfBand }).sound := by
  unfold State.sound
  decide +kernel
/-- R111, R113, R120: a net below 0 is 0 and marked, a line that rejected more than it formed packs nothing and is
marked, and 1 kg of cullet in 3 kg of batch is 333 per mille; such sets have an entry for their line. -/
def awkward : ClosingSet := { closingSet with
  furnace := { base := { correction := -1 }, charge := 2000, cullet := 1000 }
  lines := [{ line := 0, live := { formed := ⟨1000, 0⟩, rejected := ⟨1001, 0⟩ }, limits := ⟨0, 0, 0⟩ }] }
theorem test_awkward_record :
    (awkward.record 0).furnace.net = 0 ∧ (awkward.record 0).flags.negnet = true ∧
      (awkward.record 0).furnace.perMille = some 333 ∧
      (awkward.record 0).lines.map (fun e => (e.line, e.packed, e.pack.rejOverForm)) = [(0, 0, true)] ∧
      awkward.lines.length = 1 := by decide +kernel

/-- RecordsAreLookedAtAndTaken and SnapshotIsTakenAndRead: a queue with a record of two pieces; both group cases. -/
theorem witness_RecordsAndSnapshot :
    ({ running with records := [record] } : State).free ∧ ({ running with records := [record] } : State).sound ∧
      record.pieces = 2 ∧ 4 ≤ (4#8 : Byte).toNat ∧ (3 : Fin 4).val = (3#8 : Byte).toNat := by
  unfold State.free State.sound
  decide +kernel

/-- The sources of `serving`, with STRM pending at priority 0 and a destination. -/
def alerting : State := { serving with attention := { serving.attention with
  priority := vset serving.attention.priority 1 0
  pending := vset serving.attention.pending 1 true
  destination := 9#8 } }

theorem witness_AlertOnChange :
    alerting.refreshLevels.attention.highest = some .strm ∧ alerting.attention.lastAlerted ≠ some .strm := by
  decide +kernel

/-- AttentionSourcesLoad: the bounds of the arguments, the last source, and a source in service. -/
theorem witness_AttentionSourcesLoad :
    running.free ∧ 6 < (7#8 : Byte).toNat ∧ 7 < (8#8 : Byte).toNat ∧ 1 < (2#8 : Byte).toNat ∧
      Source.hear.code.val = (6#8 : Byte).toNat ∧ (7#8 : Byte).toNat ≤ 7 ∧
      serving.attention.isInService .lstp = true := by
  unfold State.free
  decide +kernel

theorem witness_AcknowledgeTakesTheHighest :
    alerting.free ∧ alerting.attention.highest = some .strm ∧ running.free ∧ running.attention.highest = none := by
  unfold State.free
  decide +kernel

theorem witness_EndOfAttention :
    running.free ∧ 6 < (7#8 : Byte).toNat ∧ Source.hear.code.val = (6#8 : Byte).toNat ∧
      ∀ x, running.attention.isInService x = false := by
  refine ⟨by unfold State.free; decide, by decide, by decide, ?_⟩
  intro x
  cases x <;> decide
theorem witness_EndOfAttention_most_urgent :
    serving.free ∧ serving.attention.isInService .lstp = true ∧
      ∀ y, serving.attention.isInService y = true → y ≠ .lstp →
        serving.attention.prio .lstp < serving.attention.prio y := by
  refine ⟨by unfold State.free; decide, by decide, ?_⟩
  intro y
  cases y <;> decide

/-- FaultRecordClearsAndInjectionsArm: the first numbers past each region, and the last within. -/
theorem witness_FaultRecordClearsAndInjectionsArm :
    ({ running with records := [record] } : State).free ∧ 4 < (5#8 : Byte).toNat ∧ (3#8 : Byte) ≠ 1#8 ∧ (3#8 : Byte) ≠ 2#8 ∧
      48 ≤ (48#8 : Byte).toNat ∧ 12 ≤ (12#8 : Byte).toNat ∧
      ({ running with records := [record] } : State).records.length ≤ (1#8 : Byte).toNat ∧
      (47#8 : Byte).toNat = (47 : Fin 48).val ∧ (11#8 : Byte).toNat = (Account.line 7).number ∧
      (0#8 : Byte).toNat < ({ running with records := [record] } : State).records.length := by
  unfold State.free
  decide +kernel

/-- InjectedErrorsAreFound: its cases, and a closing set with a line, and a record, that meet the DOUBLE case's clauses. -/
theorem witness_InjectedErrorsAreFound :
    running.latent = [] ∧ running.check.armed = none ∧
      ({ running with check := { armed := some { item := .stream 0, double := false } } } : State).check.armed =
        some { item := .stream 0, double := false } ∧
      ({ closingNow running false with
          records := [record]
          check := { armed := some { item := .queue 0, double := true } } } : State).check.armed =
        some { item := .queue 0, double := true } ∧
      (Item.stream 0 ≠ Item.stream 1) ∧ closingSet.lines.map (fun x => x.line) = [0] ∧
      ((closingNow running false).group 0).closing = some closingSet := by decide +kernel

/-- LinkComesUp: a port in DOWN with a burst due, one in OFFER, and a burst that names a rate. -/
theorem witness_LinkComesUp :
    (State.reset.port .field).link = .down ∧ (State.reset.port .field).burstAt ≤ State.reset.clock.elapsed ∧
      (({ State.reset with field := { link := .offer } } : State).port .field).link = .offer ∧
      ((⟨true, false⟩ : RateSet).a || (⟨true, false⟩ : RateSet).b) = true := by decide

/-- LinkIsLostOrRestarts: an UP port with no command waiting, and one with a command in execution. -/
theorem witness_LinkIsLostOrRestarts :
    running.commands = [] ∧ busy.executing.isSome = true ∧ (running.port .plant).link = .up ∧
      ((⟨true, false⟩ : RateSet).a || (⟨true, false⟩ : RateSet).b) = true := by decide

/-- LinkIsLostOrRestarts and TransmitterChooses: a command waits, with a slot free and none in execution, so that it is
taken; and with the slots full, so that it goes on waiting. -/
theorem witness_WaitingCommandIsTaken :
    ({ running with commands := [⟨9#8, 0x01#8, 2#8, []⟩] } : State).executing = none ∧ running.plant.slots < 6 ∧
      ¬({ upPort with reserved := 6 } : Port).localQueue.length + ({ upPort with reserved := 6 } : Port).reserved < 6 := by
  decide

/-- LinkIsConfiguredAndRead: the bounds of its arguments, a rate set kept and one that drops the port's rate. -/
theorem witness_LinkIsConfiguredAndRead :
    running.free ∧ 1 < (2#8 : Byte).toNat ∧ 3 < (4#8 : Byte).toNat ∧ Threshold.b256.code = (3#8 : Byte).toNat ∧
      (running.port .plant).rate = some .b ∧ (⟨true, true⟩ : RateSet).has .b = true ∧
      (⟨true, false⟩ : RateSet).has .b = false ∧ (running.port .plant).link = .up ∧ (1#8 : Byte).toNat ≤ 1 := by
  unfold State.free
  decide

/-- A frame stored whole on the field port, one of the plant port's own, and one in reception. -/
def stored : Stored := { bytes := Frame.bytes ⟨1#8, 2#8, 9#8, []⟩, whole := true, good := true, threshold := .whole }
def partly : Stored := { bytes := List.replicate 16 1#8, whole := false, good := false, threshold := .b16 }

/-- TransmitterChooses: a whole frame first, a frame of its own, neither, and a frame in reception at its threshold. -/
theorem witness_TransmitterChooses :
    running.commands = [] ∧ (running.port .plant).link = .up ∧ (running.port .plant).tx = none ∧
      (running.port .field).listed ≤ 2048 ∧ (running.port .field).buffer = [] ∧ (running.port .plant).localQueue = [] ∧
      (({ running with field := { upPort with buffer := [stored] } } : State).port .field).buffer = [stored] ∧
      stored.threshold = .whole ∧ stored.whole = true ∧ stored.good = true ∧ partly.threshold ≠ .whole ∧
      16 ≤ partly.bytes.length := by decide +kernel
theorem witness_TransmitterChooses_own :
    (({ running with plant := { upPort with localQueue := [⟨9#8, 254#8, 7#8, [0#8, 0#8]⟩] } } : State).port
        .plant).localQueue = [⟨9#8, 254#8, 7#8, [0#8, 0#8]⟩] ∧ upPort.line = .idle .b ∧ upPort.rate = some .b ∧
      ({ upPort with line := .abort } : Port).line ≠ .idle .b := by decide
/-- A frame in reception just at 16 bytes, under the present threshold and under one that an lkcf has replaced since. -/
theorem witness_TransmitterChooses_receiving :
    ([1#8, 2#8, 9#8] ++ List.replicate 13 0#8 : List Byte).length = 16 ∧ (13 : Nat) ≤ 251 ∧
      (({ running with field := { upPort with threshold := .b16 } } : State).port .field).threshold = .b16 ∧
      ({ upPort with past := [.b16] } : Port).past[0]? = some .b16 ∧ ({ reloads := 1 } : Begun).linked = true ∧
      (running.port .field).rx = none ∧ ¬(9#8 : Byte) = 5#8 := by decide

/-- TransmissionEnds: a frame of its own, a forwarded one that has ended, one that has not, and a full buffer. -/
theorem witness_TransmissionEnds :
    ({ upPort with tx := some (.own [1#8]) } : Port).tx = some (.own [1#8]) ∧
      ({ upPort with tx := some .forwarded } : Port).tx = some .forwarded ∧
      ({ upPort with buffer := [stored] } : Port).buffer = [stored] ∧ stored.whole = true ∧ partly.whole = false ∧
      (running.port .field).rx = none ∧ (running.port .plant).link = .up ∧
      ({ upPort with rx := some true, buffer := [partly] } : Port).buffer = [] ++ [partly] ∧
      2048 < ((List.replicate 127 partly).map fun e => e.bytes.length).sum + ((List.replicate 14 0#8 : List Byte).length + 3) := by
  decide +kernel

/-- FramesAreForwardedOrCounted: a frame no block takes, or a block takes too, a buffer it just fits and one it does not,
a bad frame while one is stored, and one that is being sent. -/
theorem witness_FramesAreForwardedOrCounted :
    (running.port .field).link = .up ∧ (running.port .field).rx = none ∧
      ({ upPort with buffer := List.replicate 127 partly } : Port).listed +
        (Frame.bytes ⟨1#8, 2#8, 9#8, List.replicate 9 0#8⟩).length = 2048 ∧
      2048 < ({ upPort with buffer := List.replicate 127 partly } : Port).listed +
        (Frame.bytes ⟨1#8, 2#8, 9#8, List.replicate 10 0#8⟩).length ∧
      acceptBytes [1#8, 2#8] = none ∧ ({ upPort with rx := some true, buffer := [partly] } : Port).buffer = [] ++ [partly] := by
  decide +kernel
/-- A reception begun before the other port was UP, one begun before an lkcf, and a full buffer whose head is sent. -/
theorem witness_FramesBegunBefore :
    ({ linked := false } : Begun).linked ≠ true ∧ ({ reloads := 1 } : Begun).reloads = 0 + 1 ∧
      ({ upPort with past := [.whole] } : Port).past[0]? = some .whole ∧ (running.port .plant).link = .up ∧
      ({ upPort with tx := some .forwarded } : Port).tx = some .forwarded ∧
      ({ upPort with buffer := partly :: List.replicate 127 partly } : Port).buffer = partly :: List.replicate 127 partly ∧
      2048 < ({ upPort with buffer := partly :: List.replicate 127 partly } : Port).listed +
        (Frame.bytes ⟨1#8, 2#8, 9#8, []⟩).length := by
  decide +kernel

end Sys2Proof.Tests
end

section
/-! PROOFS. The apportionment of a furnace net (R113 to R116). The ranking of R115 is a permutation of the entries, so
exactly as many entries are favoured as there are kilojoules left over; and the leftover is at most the number of
entries with a remainder, so no other entry is favoured. -/

namespace Sys2Proof.Machine

/-! ### Counting over places -/

/-- A count over a list is a count over its places. -/
theorem countP_eq_count {p : Nat → Bool} {q : Nat → Prop} [DecidablePred q] (l : List Nat)
    (h : ∀ j (hj : j < l.length), q j ↔ p l[j] = true) : l.countP p = Nat.count q l.length := by
  induction l generalizing q with
  | nil => rfl
  | cons x l ih =>
    have first : q 0 ↔ p x = true := h 0 (by simp)
    have rest : l.countP p = Nat.count (fun j => q (j + 1)) l.length :=
      ih fun j hj => h (j + 1) (by simpa using hj)
    simp [List.countP_cons, Nat.count_succ', rest, first]

/-- A list with 1 added at some of its places. -/
theorem sum_mapIdx_add_ite (l : List Nat) (p : Nat → Prop) [DecidablePred p] :
    (l.mapIdx fun i x => x + if p i then 1 else 0).sum = l.sum + Nat.count p l.length := by
  induction l using List.reverseRecOn with
  | nil => rfl
  | append_singleton l x ih =>
    simp only [List.mapIdx_concat, List.sum_append, ih, List.sum_singleton, List.length_append, List.length_singleton,
      Nat.count_succ]
    omega

/-- Where `f` permutes the numbers below `n`, it takes just `k` of them to a value below `k`. -/
theorem count_lt_of_injOn {n k : Nat} {f : Nat → Nat} (hf : ∀ i < n, f i < n)
    (inj : ∀ i < n, ∀ j < n, f i = f j → i = j) (hk : k ≤ n) : Nat.count (fun i => f i < k) n = k := by
  have injOn : Set.InjOn f (Finset.range n) := fun i hi j hj e => inj i (by simpa using hi) j (by simpa using hj) e
  have onto : (Finset.range n).image f = Finset.range n := by
    refine Finset.eq_of_subset_of_card_le (fun x hx => ?_) (by rw [Finset.card_image_of_injOn injOn])
    obtain ⟨i, hi, rfl⟩ := Finset.mem_image.mp hx
    exact Finset.mem_range.mpr (hf i (Finset.mem_range.mp hi))
  have below : ((Finset.range n).filter fun i => f i < k).image f = Finset.range k := by
    rw [← Finset.filter_image (p := fun x => x < k), onto]
    ext x
    simp only [Finset.mem_filter, Finset.mem_range]
    omega
  calc Nat.count (fun i => f i < k) n
      = ((Finset.range n).filter fun i => f i < k).card := Nat.count_eq_card_filter_range _ n
    _ = (((Finset.range n).filter fun i => f i < k).image f).card :=
        (Finset.card_image_of_injOn (injOn.mono (Finset.coe_subset.mpr (Finset.filter_subset _ _)))).symm
    _ = k := by rw [below, Finset.card_range]

/-! ### The ranking of R115 -/

/-- Entry `j` is ranked before entry `i`: by a larger remainder, or by the lower place at the same one (R115). -/
abbrev rankedBefore (rs : List Nat) (j i : Nat) : Prop :=
  rs.getD i 0 < rs.getD j 0 ∨ rs.getD i 0 = rs.getD j 0 ∧ j < i

theorem rankedBefore_trans {rs : List Nat} {i j k : Nat} (h : rankedBefore rs k j) (h' : rankedBefore rs j i) :
    rankedBefore rs k i := by
  unfold rankedBefore at *
  omega

theorem rankedBefore_irrefl (rs : List Nat) (i : Nat) : ¬rankedBefore rs i i := by
  unfold rankedBefore
  omega

theorem rankedBefore_total (rs : List Nat) (i j : Nat) : rankedBefore rs i j ∨ i = j ∨ rankedBefore rs j i := by
  unfold rankedBefore
  omega

/-- The entries ranked before entry `i`, as places. -/
def placesBefore (rs : List Nat) (i : Nat) : Finset Nat :=
  (Finset.range rs.length).filter fun j => rankedBefore rs j i

theorem mem_placesBefore {rs : List Nat} {i j : Nat} :
    j ∈ placesBefore rs i ↔ j < rs.length ∧ rankedBefore rs j i := by
  simp [placesBefore]

/-- The rank of an entry is the number of entries ranked before it. -/
theorem rankOf_eq_card {rs : List Nat} {i : Nat} (hi : i < rs.length) : rankOf rs i = (placesBefore rs i).card := by
  have split : rs.length = (rs.take i).length + (1 + (rs.drop (i + 1)).length) := by simp; omega
  have len : (rs.take i).length = i := by simp; omega
  unfold rankOf placesBefore
  rw [← Nat.count_eq_card_filter_range, split, Nat.count_add, Nat.count_add, len]
  rw [countP_eq_count (rs.take i) (q := fun j => rankedBefore rs j i),
    countP_eq_count (rs.drop (i + 1)) (q := fun j => rankedBefore rs (i + (1 + j)) i)]
  · simp [len, Nat.count_one]
  · intro j hj
    have e : rs.getD (i + (1 + j)) 0 = (rs.drop (i + 1))[j] := by
      simp only [List.length_drop] at hj
      rw [List.getElem_drop, List.getD_eq_getElem _ _ (by omega)]
      simp only [Nat.add_assoc]
    simp only [rankedBefore, e, decide_eq_true_eq]
    omega
  · intro j hj
    have e : rs.getD j 0 = (rs.take i)[j] := by
      rw [List.getElem_take, List.getD_eq_getElem]
    simp only [rankedBefore, e, decide_eq_true_eq]
    omega

/-- Ranks follow the ranking. -/
theorem rankOf_lt_rankOf {rs : List Nat} {i j : Nat} (hi : i < rs.length) (hj : j < rs.length)
    (h : rankedBefore rs j i) : rankOf rs j < rankOf rs i := by
  rw [rankOf_eq_card hi, rankOf_eq_card hj]
  refine Finset.card_lt_card (Finset.ssubset_iff_of_subset (fun k hk => ?_) |>.mpr ⟨j, ?_, fun hk => ?_⟩)
  · obtain ⟨hl, hb⟩ := mem_placesBefore.mp hk
    exact mem_placesBefore.mpr ⟨hl, rankedBefore_trans hb h⟩
  · exact mem_placesBefore.mpr ⟨hj, h⟩
  · exact rankedBefore_irrefl rs j (mem_placesBefore.mp hk).2

theorem rankedBefore_of_rankOf_lt {rs : List Nat} {i j : Nat} (hi : i < rs.length) (hj : j < rs.length)
    (h : rankOf rs j < rankOf rs i) : rankedBefore rs j i := by
  rcases rankedBefore_total rs j i with hb | rfl | hb
  · exact hb
  · omega
  · have := rankOf_lt_rankOf hj hi hb
    omega

theorem rankOf_inj {rs : List Nat} {i j : Nat} (hi : i < rs.length) (hj : j < rs.length)
    (h : rankOf rs i = rankOf rs j) : i = j := by
  rcases rankedBefore_total rs i j with hb | e | hb
  · have := rankOf_lt_rankOf hj hi hb
    omega
  · exact e
  · have := rankOf_lt_rankOf hi hj hb
    omega

theorem rankOf_lt_length {rs : List Nat} {i : Nat} (hi : i < rs.length) : rankOf rs i < rs.length := by
  have short := List.length_take (i := i) (l := rs)
  have front := (rs.take i).countP_le_length (p := fun r => decide (rs.getD i 0 ≤ r))
  have back := (rs.drop (i + 1)).countP_le_length (p := fun r => decide (rs.getD i 0 < r))
  simp only [List.length_drop] at back
  unfold rankOf
  omega

/-- R115: an entry without a remainder is ranked behind every entry with one. -/
theorem countP_pos_le_rankOf {rs : List Nat} {i : Nat} (hi : i < rs.length) (h : rs.getD i 0 = 0) :
    rs.countP (fun r => decide (0 < r)) ≤ rankOf rs i := by
  rw [rankOf_eq_card hi, countP_eq_count rs (q := fun j => 0 < rs.getD j 0)
    (fun j hj => by simp [hj]), Nat.count_eq_card_filter_range]
  refine Finset.card_le_card fun j hj => ?_
  obtain ⟨hl, hp⟩ := Finset.mem_filter.mp hj
  exact mem_placesBefore.mpr ⟨Finset.mem_range.mp hl, .inl (h.trans_lt hp)⟩

/-! ### The leftover -/

@[simp] theorem quotients_length (en : Nat) (ms : List Nat) : (quotients en ms).length = ms.length := by
  simp [quotients]

@[simp] theorem remainders_length (en : Nat) (ms : List Nat) : (remainders en ms).length = ms.length := by
  simp [remainders]

theorem remainders_getD {en i : Nat} {ms : List Nat} (hi : i < ms.length) :
    (remainders en ms).getD i 0 = en * ms.getD i 0 % ms.sum := by
  simp [remainders, hi]

/-- R114: dividing each of `en * m` by `d` splits `en` times the whole mass into the quotients and the remainders. -/
theorem sum_div_add_sum_mod (en d : Nat) (ms : List Nat) :
    d * (ms.map fun m => en * m / d).sum + (ms.map fun m => en * m % d).sum = en * ms.sum := by
  induction ms with
  | nil => simp
  | cons m ms ih =>
    have head := Nat.div_add_mod (en * m) d
    simp only [List.map_cons, List.sum_cons, Nat.mul_add]
    omega

/-- Remainders by `d` sum to at most `d` for each that is above 0. -/
theorem sum_mod_le (en d : Nat) (hd : 0 < d) (ms : List Nat) :
    (ms.map fun m => en * m % d).sum ≤ d * (ms.map fun m => en * m % d).countP fun r => decide (0 < r) := by
  induction ms with
  | nil => simp
  | cons m ms ih =>
    have head := Nat.mod_lt (en * m) hd
    simp only [List.map_cons, List.sum_cons, List.countP_cons, decide_eq_true_eq]
    split
    · rw [Nat.mul_add]
      omega
    · rw [Nat.add_zero]
      omega

/-- R114: the remainders sum to the leftover times the whole mass, and the quotients to no more than the net. -/
theorem leftover_spec (en : Nat) {ms : List Nat} (h : 0 < ms.sum) :
    (quotients en ms).sum + leftover en ms = en ∧ ms.sum * leftover en ms = (remainders en ms).sum := by
  have whole : ms.sum * (quotients en ms).sum + (remainders en ms).sum = ms.sum * en :=
    (sum_div_add_sum_mod en ms.sum ms).trans (Nat.mul_comm _ _)
  have le : (quotients en ms).sum ≤ en := Nat.le_of_mul_le_mul_left (by omega) h
  have sum : (quotients en ms).sum + leftover en ms = en := by
    unfold leftover
    omega
  refine ⟨sum, ?_⟩
  have := congrArg (ms.sum * ·) sum
  simp only [Nat.mul_add] at this
  omega

/-- R114: no more is left over than there are entries with a remainder. -/
theorem leftover_le_countP_pos (en : Nat) {ms : List Nat} (h : 0 < ms.sum) :
    leftover en ms ≤ (remainders en ms).countP fun r => decide (0 < r) := by
  refine Nat.le_of_mul_le_mul_left ?_ h
  rw [(leftover_spec en h).2]
  exact sum_mod_le en ms.sum h ms

theorem leftover_le_length (en : Nat) {ms : List Nat} (h : 0 < ms.sum) : leftover en ms ≤ ms.length :=
  (leftover_le_countP_pos en h).trans ((List.countP_le_length).trans_eq (remainders_length en ms))

/-- R115: an entry among the first in the ranking, as many as the leftover, has a remainder. -/
theorem remainder_pos_of_favoured {en i : Nat} {ms : List Nat} (h : 0 < ms.sum) (hi : i < ms.length)
    (hr : rankOf (remainders en ms) i < leftover en ms) : 0 < en * ms.getD i 0 % ms.sum := by
  by_contra hz
  have zero : (remainders en ms).getD i 0 = 0 := by
    rw [remainders_getD hi]
    omega
  have behind := countP_pos_le_rankOf (by simpa using hi) zero
  have few := leftover_le_countP_pos en h
  omega

/-! ### The shares -/

@[simp] theorem shares_length (en : Nat) (ms : List Nat) : (shares en ms).length = ms.length := by
  unfold shares
  split <;> simp

/-- R116: no mass, no share. -/
theorem shares_of_sum_eq_zero {en : Nat} {ms : List Nat} (h : ms.sum = 0) : ∀ x ∈ shares en ms, x = 0 := by
  simp [shares, h]

/-- R114, R115: a share is its quotient, and 1 kJ more among the first of the ranking. -/
theorem shares_getElem? {en i : Nat} {ms : List Nat} (h : 0 < ms.sum) (hi : i < ms.length) :
    (shares en ms)[i]? = some (en * ms.getD i 0 / ms.sum +
      if rankOf (remainders en ms) i < leftover en ms then 1 else 0) := by
  simp [shares, quotients, h.ne', hi]

/-- R115: the shares sum to the net. -/
theorem shares_sum (en : Nat) {ms : List Nat} (h : 0 < ms.sum) : (shares en ms).sum = en := by
  have favoured : Nat.count (fun i => rankOf (remainders en ms) i < leftover en ms) ms.length = leftover en ms := by
    refine count_lt_of_injOn (fun i hi => ?_) (fun i hi j hj e => ?_) (leftover_le_length en h)
    · simpa using rankOf_lt_length (rs := remainders en ms) (by simpa using hi)
    · exact rankOf_inj (by simpa using hi) (by simpa using hj) e
  unfold shares
  rw [if_neg h.ne', sum_mapIdx_add_ite, quotients_length, favoured]
  exact (leftover_spec en h).1

/-- R114, R115: each share is its quotient, or 1 kJ more where there is a remainder. -/
theorem share_quotient_or_succ {en i : Nat} {ms : List Nat} (h : 0 < ms.sum) (hi : i < ms.length)
    (hi' : i < (shares en ms).length) :
    (shares en ms)[i] = en * ms[i] / ms.sum ∨
      (shares en ms)[i] = en * ms[i] / ms.sum + 1 ∧ 0 < en * ms[i] % ms.sum := by
  have value := shares_getElem? (en := en) h hi
  rw [List.getElem?_eq_getElem hi', Option.some_inj] at value
  rw [← List.getD_eq_getElem ms 0 hi, value]
  split
  · next favoured => exact .inr ⟨rfl, remainder_pos_of_favoured h hi favoured⟩
  · exact .inl rfl

/-- R115: a favoured entry is ranked before one that is not. -/
theorem rankedBefore_of_shares {en i j : Nat} {ms : List Nat} (h : 0 < ms.sum) (hi : i < ms.length)
    (hj : j < ms.length) (more : (shares en ms)[i]? = some (en * ms.getD i 0 / ms.sum + 1))
    (less : (shares en ms)[j]? = some (en * ms.getD j 0 / ms.sum)) : rankedBefore (remainders en ms) i j := by
  have favoured : rankOf (remainders en ms) i < leftover en ms := by simpa [shares_getElem? h hi] using more
  have passed : leftover en ms ≤ rankOf (remainders en ms) j := by simpa [shares_getElem? h hj] using less
  exact rankedBefore_of_rankOf_lt (by simpa using hj) (by simpa using hi) (by omega)

/-! ### The shares in the record -/

/-- R115: the entries of a record carry the shares, in line order. -/
theorem ClosingSet.entries_map_share (c : ClosingSet) : c.entries.map (·.share) = shares c.net c.masses := by
  have len : (shares c.net c.masses).length ≤ c.lines.length := by simp [ClosingSet.masses]
  have share : ((·.share) ∘ fun p : ClosingLine × Nat => lineEntry p.1 p.2) = Prod.snd := rfl
  rw [ClosingSet.entries, List.map_map, share, List.map_snd_zip len]

theorem ClosingSet.share_eq_zero {c : ClosingSet} (h : c.pulled = 0) {e : LineEntry} (he : e ∈ c.entries) :
    e.share = 0 :=
  shares_of_sum_eq_zero h e.share (c.entries_map_share ▸ List.mem_map_of_mem he)

theorem ClosingSet.furnacePart_unallotted (c : ClosingSet) :
    c.furnacePart.unallotted = if c.pulled = 0 then some c.furnacePart.net else none := rfl

end Sys2Proof.Machine

open Sys2Proof Sys2Proof.Machine

/-- Settles O11: the sum by counting the entries that the ranking favours, the order between two entries by their
ranks, and the record by the shares its entries carry. -/
theorem sharesSumToTheNet : Obligations.SharesSumToTheNet := by
  refine ⟨fun en ms h => ⟨shares_sum en h, shares_length en ms, fun i hi hi' => share_quotient_or_succ h hi hi'⟩,
    fun en ms i j h hi hj more less => ?_, fun c g => ⟨fun h => ⟨?_, ?_⟩, fun h => ⟨fun e he => ?_, ?_⟩⟩⟩
  · have before := rankedBefore_of_shares h hi hj more less
    rwa [rankedBefore, remainders_getD hi, remainders_getD hj] at before
  · exact (congrArg List.sum c.entries_map_share).trans (shares_sum c.net h)
  · exact c.furnacePart_unallotted.trans (if_neg h.ne')
  · exact ClosingSet.share_eq_zero h he
  · exact c.furnacePart_unallotted.trans (if_pos h)
end

section
/-! PROOFS. The close command (R104). -/

namespace Sys2Proof.Machine

/-- R104: at a free command unit the row clos is the handler's work on its group number. -/
theorem exec_clos {src tag g : Byte} {s : State} (h : s.free) {r : Reply} {e : State}
    (hr : takeClos [g] s.reserveSlot = (r, e)) :
    exec (.clos src tag g) s = .next (s.taken ⟨src, 0x30#8, tag, [g]⟩ r e) :=
  next_taken h (by simp) hr

/-- R104: a group number past 3. -/
theorem takeClos_of_le {g : Byte} (h : 4 ≤ g.toNat) (s : State) : takeClos [g] s = (⟨.badarg, []⟩, s) := by
  simp [takeClos, fin?_of_le h, refuse]

theorem State.closes_eq_false_iff (s : State) : s.closes = false ↔ s.run = .idle ∨ s.run = .pass := by
  unfold State.closes
  cases s.run <;> simp

/-- R104: the checks on a group, in their order. -/
theorem takeClos_of_group {g : Byte} {f : Fin 4} (h : f.val = g.toNat) (s : State) :
    takeClos [g] s =
      if (s.furnaceCfg f).defined = false then (⟨.badarg, []⟩, s)
      else if s.run = .idle ∨ s.run = .pass then (⟨.state, []⟩, s)
      else if (s.group f).closing.isSome then (⟨.busy, []⟩, s)
      else (⟨.done, be 4 (s.group f).period⟩, s.swap f .command) := by
  simp only [takeClos, fields_one, fin?_of_eq f h, ← State.closes_eq_false_iff, Bool.not_eq_eq_eq_not, Bool.not_true]
  rfl

end Sys2Proof.Machine

open Sys2Proof Sys2Proof.Machine

/-- Settles O41: each row of R104's table by the handler's answer in that case. -/
theorem closFollowsItsTable : Obligations.ClosFollowsItsTable := by
  intro src tag g s free
  refine ⟨fun past => exec_clos free (takeClos_of_le past _), fun f hf => ?_⟩
  have work := takeClos_of_group hf s.reserveSlot
  split
  · next unused => exact exec_clos free (work.trans (if_pos unused))
  · next defined =>
    have work := work.trans (if_neg defined)
    split
    · next still => exact exec_clos free (work.trans (if_pos still))
    · next closes =>
      have work := work.trans (if_neg closes)
      split
      · next closing => exact exec_clos free (work.trans (if_pos closing))
      · next idle => exact exec_clos free (work.trans (if_neg idle))
end

section
/-! PROOFS. The attention commands ldat, atds, ackn, eoas and eoan (R182, R183, R185 to R187). -/

namespace Sys2Proof.Machine

/-! ### Codes (R191) -/

/-- A one-byte field. -/
theorem be_one_eq (x : Nat) : be 1 x = [BitVec.ofNat 8 x] := by simp [be]

theorem fields_nil : fields [] [] = some [] := rfl

/-- A source's code names it, and no other number does. -/
theorem source?_eq_some_iff {n : Nat} {y : Source} : source? n = some y ↔ y.code.val = n := by
  constructor
  · unfold source?
    split <;> rintro ⟨⟩ <;> rfl
  · rintro rfl
    cases y <;> rfl

theorem source?_of_lt {n : Nat} (h : 6 < n) : source? n = none := by
  rw [Option.eq_none_iff_forall_ne_some]
  intro y hy
  have := source?_eq_some_iff.mp hy
  omega

theorem bool?_of_le_one {b : Byte} (h : b.toNat ≤ 1) : bool? b.toNat = some (b == 1#8) := by
  obtain rfl | rfl : b = 0#8 ∨ b = 1#8 := by bv_omega
  · rfl
  · rfl

theorem le_one_of_bool? {n : Nat} {b : Bool} (h : bool? n = some b) : n ≤ 1 := by
  unfold bool? at h
  split at h
  · omega
  · omega
  · cases h

/-! ### The most urgent source (R180) -/

namespace Attention

variable (a : Attention)

theorem mostUrgent_eq_none_iff {l : List Source} : a.mostUrgent l = none ↔ l = [] := by
  cases l with
  | nil => simp [mostUrgent]
  | cons x l =>
    simp only [mostUrgent, reduceCtorEq, iff_false]
    split
    · simp
    · split <;> simp

/-- The most urgent of some sources is one of them, and none of them is more urgent. -/
theorem mostUrgent_spec {l : List Source} {z : Source} (h : a.mostUrgent l = some z) :
    z ∈ l ∧ ∀ y ∈ l, a.prio z ≤ a.prio y := by
  induction l generalizing z with
  | nil => cases h
  | cons x l ih =>
    simp only [mostUrgent] at h
    split at h
    · next empty =>
      obtain rfl := a.mostUrgent_eq_none_iff.mp empty
      cases h
      simp
    · next u hu =>
      obtain ⟨mem, least⟩ := ih hu
      split at h
      · next before =>
        cases h
        exact ⟨List.mem_cons_of_mem x mem, List.forall_mem_cons.mpr ⟨before.le, least⟩⟩
      · next after =>
        cases h
        exact ⟨List.mem_cons_self, List.forall_mem_cons.mpr ⟨le_rfl, fun y hy => by have := least y hy; omega⟩⟩

/-- A source more urgent than each of the others is the most urgent. -/
theorem mostUrgent_eq_some {l : List Source} {x : Source} (mem : x ∈ l)
    (first : ∀ y ∈ l, y ≠ x → a.prio x < a.prio y) : a.mostUrgent l = some x := by
  cases h : a.mostUrgent l with
  | none => simp [a.mostUrgent_eq_none_iff.mp h] at mem
  | some z =>
    obtain ⟨hz, least⟩ := a.mostUrgent_spec h
    by_contra ne
    have less := first z hz fun e => ne (congrArg some e)
    have := least x mem
    omega

end Attention

theorem Source.mem_all (x : Source) : x ∈ Source.all := by cases x <;> decide

theorem Source.mem_filter_all {p : Source → Bool} {x : Source} : x ∈ Source.all.filter p ↔ p x = true := by
  simp [x.mem_all]

/-! ### ldat and atds (R182, R183) -/

section
variable {src tag x p m n : Byte} {s e : State} {r : Reply}

/-- R182: at a free command unit the row ldat is the handler's work on its arguments. -/
theorem exec_ldat (h : s.free) (hr : takeLdat [x, p, m, n] s.reserveSlot = (r, e)) :
    exec (.ldat src tag x p m n) s = .next (s.taken ⟨src, 0x50#8, tag, [x, p, m, n]⟩ r e) :=
  next_taken h (by simp) hr

/-- R183: at a free command unit the row atds is the handler's work on its arguments. -/
theorem exec_atds (h : s.free) (hr : takeAtds [x, p] s.reserveSlot = (r, e)) :
    exec (.atds src tag x p) s = .next (s.taken ⟨src, 0x51#8, tag, [x, p]⟩ r e) :=
  next_taken h (by simp) hr

/-- R182: an argument past its range. Where the codes name a source and two flags, it is the priority that is past. -/
theorem takeLdat_of_past (h : 6 < x.toNat ∨ 7 < p.toNat ∨ 1 < m.toNat ∨ 1 < n.toNat) (s : State) :
    takeLdat [x, p, m, n] s = (⟨.badarg, []⟩, s) := by
  simp only [takeLdat, fields_four]
  split
  · next y mb nb hy hm hn =>
    have code := source?_eq_some_iff.mp hy
    have mask := le_one_of_bool? hm
    have nest := le_one_of_bool? hn
    exact if_neg (by omega)
  · rfl

/-- R182: arguments in their ranges load, but for a source in service. -/
theorem takeLdat_of_source {y : Source} (hy : y.code.val = x.toNat) (hp : p.toNat ≤ 7) (hm : m.toNat ≤ 1)
    (hn : n.toNat ≤ 1) (s : State) :
    takeLdat [x, p, m, n] s =
      if s.attention.isInService y then (⟨.state, []⟩, s)
      else (⟨.done, []⟩, { s with attention := { s.attention with
        priority := vset s.attention.priority y.code p.toNat
        masked := vset s.attention.masked y.code (m == 1#8)
        nesting := vset s.attention.nesting y.code (n == 1#8) } }) := by
  simp only [takeLdat, fields_four, source?_eq_some_iff.mpr hy, bool?_of_le_one hm, bool?_of_le_one hn, if_pos hp]
  rfl

theorem takeAtds_of_lt (h : 7 < p.toNat) (s : State) : takeAtds [x, p] s = (⟨.badarg, []⟩, s) := by
  simp only [takeAtds, fields_two, if_neg (Nat.not_le.mpr h)]
  rfl

theorem takeAtds_of_le (h : p.toNat ≤ 7) (s : State) :
    takeAtds [x, p] s = (⟨.done, []⟩, { s with attention := { s.attention with
      destination := x
      threshold := p.toNat
      lastAlerted := if s.attention.destination = x then s.attention.lastAlerted else none } }) := by
  simp only [takeAtds, fields_two, if_pos h, BitVec.ofNat_toNat, BitVec.setWidth_eq]
  rfl

/-! ### ackn (R185) -/

/-- R185: at a free command unit the row ackn is the handler's work. -/
theorem exec_ackn (h : s.free) (hr : takeAckn [] s.reserveSlot = (r, e)) :
    exec (.ackn src tag) s = .next (s.taken ⟨src, 0x53#8, tag, []⟩ r e) :=
  next_taken h (by simp) hr

theorem takeAckn_of_none (h : s.attention.highest = none) : takeAckn [] s = (⟨.none, []⟩, s) := by
  simp only [takeAckn, fields_nil, h]
  rfl

theorem takeAckn_of_some {y : Source} (h : s.attention.highest = some y) :
    takeAckn [] s = (⟨.done, s.attention.report y⟩, { s with attention := s.attention.acknowledge y }) := by
  simp only [takeAckn, fields_nil, h]
  rfl

/-- R185: the fields that an acknowledged source moves: a level source stays pending, and has no cause set to empty. -/
theorem Attention.acknowledge_eq (a : Attention) (y : Source) :
    a.acknowledge y = { a with
      inService := vset a.inService y.code true
      lastAlerted := none
      pending := if y = .lstp ∨ y = .qful then a.pending else vset a.pending y.code false
      strm := if y = .strm then Vector.replicate 48 {} else a.strm
      ratoFurnaces := if y = .rato then Vector.replicate 4 false else a.ratoFurnaces
      ratoLines := if y = .rato then Vector.replicate 8 false else a.ratoLines
      pcls := if y = .pcls then Vector.replicate 4 false else a.pcls } := by
  cases y <;> rfl

/-! ### eoas and eoan (R186, R187) -/

/-- R186: at a free command unit the row eoas is the handler's work on its source number. -/
theorem exec_eoas (h : s.free) (hr : takeEoas [x] s.reserveSlot = (r, e)) :
    exec (.eoas src tag x) s = .next (s.taken ⟨src, 0x54#8, tag, [x]⟩ r e) :=
  next_taken h (by simp) hr

/-- R187: at a free command unit the row eoan is the handler's work. -/
theorem exec_eoan (h : s.free) (hr : takeEoan [] s.reserveSlot = (r, e)) :
    exec (.eoan src tag) s = .next (s.taken ⟨src, 0x55#8, tag, []⟩ r e) :=
  next_taken h (by simp) hr

theorem takeEoas_of_lt (h : 6 < x.toNat) (s : State) : takeEoas [x] s = (⟨.badarg, []⟩, s) := by
  simp only [takeEoas, fields_one, source?_of_lt h]
  rfl

theorem takeEoas_of_source {y : Source} (h : y.code.val = x.toNat) (s : State) :
    takeEoas [x] s = (⟨.done, be 1 (maskNat (vset s.attention.inService y.code false).toList)⟩,
      { s with attention := s.attention.setInService y false }) := by
  simp only [takeEoas, fields_one, source?_eq_some_iff.mpr h]
  rfl

theorem takeEoan_of_none (h : ∀ y, s.attention.isInService y = false) : takeEoan [] s = (⟨.done, [0#8]⟩, s) := by
  have empty : Source.all.filter s.attention.isInService = [] := by simp [h]
  simp only [takeEoan, fields_nil, s.attention.mostUrgent_eq_none_iff.mpr empty]
  rfl

theorem takeEoan_of_first {y : Source} (serves : s.attention.isInService y = true)
    (first : ∀ z, s.attention.isInService z = true → z ≠ y → s.attention.prio y < s.attention.prio z) :
    takeEoan [] s = (⟨.done, [1#8, BitVec.ofNat 8 y.code.val]⟩,
      { s with attention := s.attention.setInService y false }) := by
  have urgent : s.attention.mostUrgent (Source.all.filter s.attention.isInService) = some y :=
    s.attention.mostUrgent_eq_some (Source.mem_filter_all.mpr serves) fun z hz =>
      first z (Source.mem_filter_all.mp hz)
  simp only [takeEoan, fields_nil, urgent, optBytes, be_one_eq]
  rfl

end

end Sys2Proof.Machine

open Sys2Proof Sys2Proof.Machine

/-- Settles O50: the handlers' answers to arguments past and within their ranges. -/
theorem attentionSourcesLoad : Obligations.AttentionSourcesLoad := by
  intro src tag x p m n s free
  refine ⟨fun past => exec_ldat free (takeLdat_of_past past _), fun y hy hp hm hn => ?_,
    fun past => exec_atds free (takeAtds_of_lt past _), fun hp => exec_atds free (takeAtds_of_le hp _)⟩
  have work := takeLdat_of_source hy hp hm hn s.reserveSlot
  split
  · next serves => exact exec_ldat free (work.trans (if_pos serves))
  · next idle => exact exec_ldat free (work.trans (if_neg idle))

/-- Settles O51: the highest source's report, spelt by its cause set, and the fields its acknowledgement moves. -/
theorem acknowledgeTakesTheHighest : Obligations.AcknowledgeTakesTheHighest := by
  intro src tag s free cmd a mask causes
  refine ⟨fun silent => exec_ackn free (takeAckn_of_none silent), fun x highest => ?_⟩
  have report : a.report x = [BitVec.ofNat 8 x.code.val, BitVec.ofNat 8 (a.prio x)] ++ causes x := by
    rw [Attention.report, be_one_eq, be_one_eq]
    cases x <;> rfl
  rw [← report, ← a.acknowledge_eq x]
  exact exec_ackn free (takeAckn_of_some highest)

/-- Settles O52: eoas by the source its argument names; eoan by the most urgent of the sources in service. -/
theorem endOfAttention : Obligations.EndOfAttention := by
  intro src tag b s free
  exact ⟨fun past => exec_eoas free (takeEoas_of_lt past _), fun x hx => exec_eoas free (takeEoas_of_source hx _),
    fun idle => exec_eoan free (takeEoan_of_none idle),
    fun x serves first => exec_eoan free (takeEoan_of_first serves first)⟩
end

section
/-! PROOFS. Arithmetic: the ratio items of a close (R118, R131), deltas, conversions and corrections (R52, R58, R64, R67),
and the next boundary of a group (R98). -/

namespace Sys2Proof.Machine

set_option Elab.async false

/-! ### Ratios (R118, R131) -/

/-- R118: the rounded ratio is the whole number of kJ/t that the exact one, raised by a half, reaches. -/
theorem ratioExact_spec (e : Nat) {m : Nat} (h : 0 < m) :
    2 * m * ratioExact e m ≤ 2 * e * 1000000 + m ∧ 2 * e * 1000000 + m < 2 * m * (ratioExact e m + 1) :=
  ⟨Nat.mul_div_le _ _, Nat.lt_mul_div_succ _ (by omega)⟩

theorem ratioItem_zero (e low : Nat) (rof : Bool) : ratioItem e 0 low rof = { value := none, rejOverForm := rof } := rfl

/-- R131: a ratio item of a mass, below its cap and from it on. -/
theorem ratioItem_pos (e low : Nat) (rof : Bool) {m : Nat} (h : 0 < m) :
    ratioItem e m low rof =
      { value := some (min cap32 (ratioExact e m)), lowMass := decide (m < low)
        sat := decide (cap32 ≤ ratioExact e m), rejOverForm := rof } := by
  have capped : (if ratioExact e m > cap32 then cap32 else ratioExact e m) = min cap32 (ratioExact e m) := by
    split <;> omega
  simp only [ratioItem, if_neg h.ne', capped]

/-! ### Deltas and conversions (R52, R58, R64) -/

/-- R52: the delta of a running total, spelt without negative numbers. -/
theorem wrapDelta_eq {m base value : Nat} (hb : base < m) (hv : value < m) :
    wrapDelta m base value = if base ≤ value then value - base else value + m - base := by
  unfold wrapDelta
  split
  · next h =>
    have e : ((value : Int) - base).emod m = value - base := Int.emod_eq_of_lt (by omega) (by omega)
    rw [e]
    omega
  · next h =>
    have e : ((value : Int) - base).emod m = value + m - base := by
      have shift : ((value : Int) - base).emod m = ((value : Int) - base + m).emod m :=
        (Int.add_emod_right _ _).symm
      rw [shift, show (value : Int) - base + m = value + m - base by ring]
      exact Int.emod_eq_of_lt (by omega) (by omega)
    rw [e]
    omega

/-- R52: an amount below the modulus that takes the base to the value, spelt without the modulus. -/
theorem add_mod_eq_iff {m base value d : Nat} (hb : base < m) (hd : d < m) (hv : value < m) :
    (base + d) % m = value ↔ base + d = value ∨ base + d = value + m := by
  rcases Nat.lt_or_ge (base + d) m with h | h
  · rw [Nat.mod_eq_of_lt h]
    omega
  · rw [Nat.mod_eq_sub_mod h, Nat.mod_eq_of_lt (by omega)]
    omega

/-- R58: a conversion's whole part and remainder make up its amount. -/
theorem convert_spec (factor rem amount : Nat) :
    (convert factor rem amount).1 * 65536 + (convert factor rem amount).2 = amount * factor + rem ∧
      (convert factor rem amount).2 < 65536 :=
  ⟨Nat.div_add_mod' _ _, Nat.mod_lt _ (by decide)⟩

/-- R64: so do those of an estimate, after what its product drops. -/
theorem convertEstimate_spec (factor rem amount : Nat) :
    (convertEstimate factor rem amount).1 * 65536 + (convertEstimate factor rem amount).2 =
        amount * factor / 65536 + rem ∧ (convertEstimate factor rem amount).2 < 65536 :=
  ⟨Nat.div_add_mod' _ _, Nat.mod_lt _ (by decide)⟩

/-! ### The next boundary (R98) -/

/-- The least of some instants. -/
theorem earliest_eq_some_iff {l : List Nat} {t : Nat} : earliest l = some t ↔ t ∈ l ∧ ∀ u ∈ l, t ≤ u := by
  induction l generalizing t with
  | nil => simp [earliest]
  | cons x l ih =>
    unfold earliest
    cases h : earliest l with
    | none =>
      have empty : l = [] := by
        cases l with
        | nil => rfl
        | cons y l => revert h; unfold earliest; split <;> [skip; split] <;> simp
      simp only [empty, Option.some.injEq, List.mem_singleton, forall_eq]
      omega
    | some u =>
      obtain ⟨mem, least⟩ := ih.mp h
      have pick : (if u < x then some u else some x) = some (min u x) := by
        split <;> congr 1 <;> omega
      simp only [pick, Option.some.injEq, List.mem_cons, forall_eq_or_imp]
      constructor
      · rintro rfl
        refine ⟨?_, by omega, fun v hv => (Nat.min_le_left _ _).trans (least v hv)⟩
        rcases Nat.le_total u x with le | le
        · exact .inr (by rwa [Nat.min_eq_left le])
        · exact .inl (Nat.min_eq_right le)
      · rintro ⟨rfl | ht, le, below⟩
        · exact Nat.min_eq_right (below u mem)
        · have := least t ht
          have := below u mem
          omega

theorem earliest_isSome_of_mem {l : List Nat} {u : Nat} (h : u ∈ l) : ∃ t, earliest l = some t ∧ t ≤ u := by
  induction l with
  | nil => cases h
  | cons x l ih =>
    unfold earliest
    cases e : earliest l with
    | none =>
      rcases List.mem_cons.mp h with rfl | h
      · exact ⟨u, rfl, le_rfl⟩
      · obtain ⟨t, ht, -⟩ := ih h
        cases e.symm.trans ht
    | some v =>
      have le : v ≤ u ∨ u = x := by
        rcases List.mem_cons.mp h with rfl | h
        · exact .inr rfl
        · obtain ⟨t, ht, le⟩ := ih h
          cases e.symm.trans ht
          exact .inl le
      dsimp only
      split
      · exact ⟨v, rfl, by omega⟩
      · exact ⟨x, rfl, by omega⟩

/-- R98: the boundary minutes of a period length. -/
theorem mem_boundaryMinutes {offset length m : Nat} (h : 1 ≤ length) :
    m ∈ boundaryMinutes offset length ↔ ∃ k, k * length < 1440 ∧ (offset + k * length) % 1440 = m := by
  have bound (k : Nat) : k < (1439 + length) / length ↔ k * length < 1440 := by
    rw [Nat.lt_iff_add_one_le, Nat.le_div_iff_mul_le (by omega), Nat.succ_mul]
    omega
  simp only [boundaryMinutes, List.mem_map, List.mem_range, bound]

/-- The next instant of a time of day is later than the present second. -/
theorem lt_nextAt (sec m : Nat) : sec < nextAt sec m := by
  unfold nextAt
  dsimp only
  split <;> omega

/-- The next instant of a minute of the day lies on it, and none lies between. -/
theorem nextAt_spec (sec : Nat) {m : Nat} (h : m < 1440) :
    nextAt sec m % 86400 = 60 * m ∧ ∀ u, sec < u → u % 86400 = 60 * m → nextAt sec m ≤ u := by
  unfold nextAt
  dsimp only
  split
  · exact ⟨by omega, fun u _ _ => by omega⟩
  · exact ⟨by omega, fun u _ _ => by omega⟩

theorem mem_boundaries {offset length sec t : Nat} :
    t ∈ ((boundaryMinutes offset length).map (nextAt sec)).filter (fun t => decide (t ≤ cap32)) ↔
      t ≤ cap32 ∧ ∃ m ∈ boundaryMinutes offset length, nextAt sec m = t := by
  simp only [List.mem_filter, List.mem_map, decide_eq_true_eq]
  exact and_comm

/-- R98: the next boundary is strictly later than plant time. -/
theorem lt_nextBoundary {offset length sec t : Nat} (h : nextBoundary offset length sec = some t) : sec < t := by
  obtain ⟨-, m, -, rfl⟩ := mem_boundaries.mp (earliest_eq_some_iff.mp h).1
  exact lt_nextAt sec m

end Sys2Proof.Machine

open Sys2Proof Sys2Proof.Machine

/-- Settles O12: by the mass, and by the cap at the exact ratio. -/
theorem ratioRoundsToNearest : Obligations.RatioRoundsToNearest := by
  intro e m low rof
  rcases Nat.eq_zero_or_pos m with rfl | pos
  · simp [ratioItem_zero]
  · obtain ⟨least, most⟩ := ratioExact_spec e pos
    rw [ratioItem_pos e low rof pos]
    refine ⟨by simp [pos.ne'], rfl, fun h => absurd h pos.ne', fun v hv => ?_⟩
    obtain rfl : min cap32 (ratioExact e m) = v := Option.some.inj hv
    refine ⟨Nat.min_le_left _ _, by simp, ?_⟩
    rcases Nat.lt_or_ge (ratioExact e m) cap32 with below | capped
    · rw [Nat.min_eq_right below.le]
      simpa [Nat.not_le.mpr below] using ⟨below, least, most⟩
    · rw [Nat.min_eq_left capped]
      have enough : 2 * m * 4294967295 ≤ 2 * m * ratioExact e m := Nat.mul_le_mul_left _ capped
      simpa [capped] using enough.trans least

/-- Settles O13: the delta by the order of base and value, the conversions by division with remainder. -/
theorem bookingArithmeticIsExact : Obligations.BookingArithmeticIsExact := by
  refine ⟨fun m base value hb hv => ?_, fun factor rem amount => ⟨convert_spec _ _ _, convertEstimate_spec _ _ _⟩,
    fun x => ⟨?_, fun pos => ?_⟩⟩
  · have delta := wrapDelta_eq hb hv
    have small : wrapDelta m base value < m := by rw [delta]; split <;> omega
    refine ⟨small, (add_mod_eq_iff hb small hv).mpr ?_, fun d hd e => ?_⟩
    · rw [delta]; split <;> omega
    · have := (add_mod_eq_iff hb hd hv).mp e
      rw [delta]; split <;> omega
  · simp only [roundCorrection]
    split <;> split <;> omega
  · simp only [roundCorrection]
    split <;> omega

/-- Settles O14: the boundary is the least of the next instants of the boundary minutes. -/
theorem nextBoundaryIsTheFirst : Obligations.NextBoundaryIsTheFirst := by
  intro offset length sec pos _ _ instant
  have next {u : Nat} (later : sec < u) (on : instant u) :
      ∃ m ∈ boundaryMinutes offset length, nextAt sec m ≤ u := by
    obtain ⟨k, hk, hu⟩ := on
    exact ⟨_, (mem_boundaryMinutes pos).mpr ⟨k, hk, rfl⟩, (nextAt_spec sec (Nat.mod_lt _ (by decide))).2 u later hu⟩
  refine ⟨fun t ht => ?_, fun u later past on => ?_⟩
  · obtain ⟨mem, least⟩ := earliest_eq_some_iff.mp ht
    obtain ⟨inRange, m, hm, rfl⟩ := mem_boundaries.mp mem
    obtain ⟨k, hk, minute⟩ := (mem_boundaryMinutes pos).mp hm
    have below : m < 1440 := by rw [← minute]; exact Nat.mod_lt _ (by decide)
    refine ⟨lt_nextAt sec m, inRange, ⟨k, hk, by rw [(nextAt_spec sec below).1, minute]⟩, fun u later on => ?_⟩
    obtain ⟨m', hm', le⟩ := next later on
    rcases Nat.lt_or_ge cap32 (nextAt sec m') with out | inside
    · omega
    · exact (least _ (mem_boundaries.mpr ⟨inside, m', hm', rfl⟩)).trans le
  · obtain ⟨m, hm, le⟩ := next later on
    obtain ⟨t, ht, first⟩ := earliest_isSome_of_mem (mem_boundaries.mpr ⟨le.trans past, m, hm, rfl⟩)
    exact ⟨t, first.trans le, ht⟩
end

section
/-! PROOFS. What every event keeps. `State.Upholds` gathers the invariants of the statements as implications;
`State.Keeps` adds the fields that no row but a reset moves, and `State.Steady` what every event keeps that works no
command. Each operation of the model is shown to keep them once, so that an event, a row and a step do by composition. -/

namespace Sys2Proof.Machine

set_option Elab.async false

/-- What every step keeps: each invariant of the statements. A field that an operation does not reach holds by
definition, as its default says. -/
structure State.Upholds (s t : State) : Prop where
  records : s.RecordsInOrder → t.RecordsInOrder := by exact id
  zero : s.ZeroOutsideAccounting → t.ZeroOutsideAccounting := by exact id
  deferred : s.DeferredOnlyClosing → t.DeferredOnlyClosing := by exact id
  priorities : s.NoSharedPriority → t.NoSharedPriority := by exact id
  pairs : s.PairsDistinct → t.PairsDistinct := by exact id
  queues : s.QueuesWithinBounds → t.QueuesWithinBounds := by exact id
  ports : s.PortsEmptyUnlessUp → t.PortsEmptyUnlessUp := by exact id
  live : s.LiveWithinCaps → t.LiveWithinCaps := by exact id

/-- What every row but a reset keeps: the queue of rows, the elapsed base and the latched straps too. -/
structure State.Keeps (s t : State) : Prop extends State.Upholds s t where
  pending : t.pending = s.pending := by rfl
  elapsed : t.clock.elapsed = s.clock.elapsed := by rfl
  address : t.address = s.address := by rfl
  pthru : t.pthru = s.pthru := by rfl

/-- What every event keeps that works no command: the run state, the command queue, plant time, and what is not due. -/
structure State.Steady (s t : State) : Prop extends State.Keeps s t where
  run : t.run = s.run := by rfl
  commands : t.commands = s.commands := by rfl
  executing : t.executing = s.executing ∨ t.executing = none := by exact .inl rfl
  sec : t.clock.sec = s.clock.sec := by rfl
  ms : t.clock.ms = s.clock.ms := by rfl
  timeSet : t.clock.timeSet = s.clock.timeSet := by rfl
  secondDue : t.clock.secondDue = true → s.clock.secondDue = true := by exact id
  wrapDue : t.clock.wrapDue = true → s.clock.wrapDue = true := by exact id
  boundary : ∀ g, s.boundaryDue g = false → t.boundaryDue g = false := by exact fun _ => id
  stops : ∀ g c, (t.group g).closing = some c → c.stop.elapsed = s.now ∨
    ∃ d, (s.group g).closing = some d ∧ d.stop.elapsed = c.stop.elapsed := by exact fun _ c h => .inr ⟨c, h, rfl⟩

theorem State.Keeps.refl (s : State) : s.Keeps s := {}

theorem State.Upholds.trans {s t u : State} (h : s.Upholds t) (k : t.Upholds u) : s.Upholds u where
  records := k.records ∘ h.records
  zero := k.zero ∘ h.zero
  deferred := k.deferred ∘ h.deferred
  priorities := k.priorities ∘ h.priorities
  pairs := k.pairs ∘ h.pairs
  queues := k.queues ∘ h.queues
  ports := k.ports ∘ h.ports
  live := k.live ∘ h.live

theorem State.Keeps.trans {s t u : State} (h : s.Keeps t) (k : t.Keeps u) : s.Keeps u where
  toUpholds := h.toUpholds.trans k.toUpholds
  pending := k.pending.trans h.pending
  elapsed := k.elapsed.trans h.elapsed
  address := k.address.trans h.address
  pthru := k.pthru.trans h.pthru

theorem State.Steady.refl (s : State) : s.Steady s := {}

theorem State.Steady.trans {s t u : State} (h : s.Steady t) (k : t.Steady u) : s.Steady u where
  toKeeps := h.toKeeps.trans k.toKeeps
  run := k.run.trans h.run
  commands := k.commands.trans h.commands
  executing := k.executing.elim (fun e => h.executing.imp e.trans e.trans) .inr
  sec := k.sec.trans h.sec
  ms := k.ms.trans h.ms
  timeSet := k.timeSet.trans h.timeSet
  secondDue := h.secondDue ∘ k.secondDue
  wrapDue := h.wrapDue ∘ k.wrapDue
  boundary g := k.boundary g ∘ h.boundary g
  stops g c hc := by
    rcases k.stops g c hc with now | ⟨d, hd, stop⟩
    · exact .inl (now.trans h.elapsed)
    · rw [← stop]
      exact h.stops g d hd

theorem State.Keeps.ite {s t u : State} {c : Prop} [Decidable c] (h : c → s.Keeps t) (k : ¬c → s.Keeps u) :
    s.Keeps (if c then t else u) := by
  split
  · exact h ‹_›
  · exact k ‹_›

theorem State.Steady.ite {s t u : State} {c : Prop} [Decidable c] (h : c → s.Steady t) (k : ¬c → s.Steady u) :
    s.Steady (if c then t else u) := by
  split
  · exact h ‹_›
  · exact k ‹_›

/-- Operations applied one after the other keep what each of them keeps. -/
theorem State.Keeps.foldl {α : Type} {f : State → α → State} (h : ∀ (s : State) (a : α), s.Keeps (f s a)) (l : List α) (s : State) :
    s.Keeps (l.foldl f s) := by
  induction l generalizing s with
  | nil => exact .refl s
  | cons a l ih => exact (h s a).trans (ih _)

theorem State.Steady.foldl {α : Type} {f : State → α → State} (h : ∀ (s : State) (a : α), s.Steady (f s a)) (l : List α) (s : State) :
    s.Steady (l.foldl f s) := by
  induction l generalizing s with
  | nil => exact .refl s
  | cons a l ih => exact (h s a).trans (ih _)

/-! ### Writes of single entries -/

section
variable (s : State)

/-- A live set written while closes are taken, or written as zero, keeps the sets zero elsewhere. -/
theorem State.steady_setFLive {f : Fin 4} {x : FurnaceLive} (idle : s.run = .idle ∨ s.run = .pass → x = {})
    (caps : (s.fLive f).WithinCaps → x.WithinCaps) : s.Steady (s.setFLive f x) where
  zero h r := by
    obtain ⟨hf, hl, hg⟩ := h r
    refine ⟨fun i => ?_, hl, hg⟩
    rw [State.fLive_setFLive]
    split
    · exact idle r
    · exact hf i
  live h := by
    refine ⟨fun i => ?_, h.2⟩
    rw [State.fLive_setFLive]
    split
    · next e => exact caps (h.1 f)
    · exact h.1 i

theorem State.steady_setLLive {l : Fin 8} {x : LineLive} (idle : s.run = .idle ∨ s.run = .pass → x = {})
    (caps : (s.lLive l).WithinCaps → x.WithinCaps) : s.Steady (s.setLLive l x) where
  zero h r := by
    obtain ⟨hf, hl, hg⟩ := h r
    refine ⟨hf, fun i => ?_, hg⟩
    rw [State.lLive_setLLive]
    split
    · exact idle r
    · exact hl i
  live h := by
    refine ⟨h.1, fun i => ?_⟩
    rw [State.lLive_setLLive]
    split
    · exact caps (h.2 l)
    · exact h.2 i

/-- In RUN a live set may take any value within its bounds. -/
theorem State.steady_setFLive_of_run (h : s.run = .run) {f : Fin 4} {x : FurnaceLive}
    (caps : (s.fLive f).WithinCaps → x.WithinCaps) : s.Steady (s.setFLive f x) :=
  s.steady_setFLive (by rw [h]; rintro (h | h) <;> cases h) caps

theorem State.steady_setLLive_of_run (h : s.run = .run) {l : Fin 8} {x : LineLive}
    (caps : (s.lLive l).WithinCaps → x.WithinCaps) : s.Steady (s.setLLive l x) :=
  s.steady_setLLive (by rw [h]; rintro (h | h) <;> cases h) caps

theorem State.steady_setLiveBase_of_run (h : s.run = .run) {a : Account} {b : LiveBase}
    (caps : (s.liveBase a).WithinCaps → b.WithinCaps) : s.Steady (s.setLiveBase a b) := by
  cases a with
  | furnace f => exact s.steady_setFLive_of_run h fun w => ⟨caps w.1, w.2⟩
  | line l => exact s.steady_setLLive_of_run h fun w => ⟨caps w.1, w.2⟩

/-- A stream emptied, or written with the pair it holds. -/
theorem State.steady_setStream {k : Fin 48} {x : Option Stream}
    (pair : ∀ st, x = some st → ∃ old, s.stream k = some old ∧ st.entry.source = old.entry.source ∧
      st.entry.channel = old.entry.channel) : s.Steady (s.setStream k x) where
  pairs h i j a b ha hb source channel := by
    have held (i : Fin 48) (a : Stream) (ha : (s.setStream k x).stream i = some a) : ∃ old, s.stream i = some old ∧
        a.entry.source = old.entry.source ∧ a.entry.channel = old.entry.channel := by
      rw [State.stream_setStream] at ha
      split at ha
      · next e => exact e ▸ pair a ha
      · exact ⟨a, ha, rfl, rfl⟩
    obtain ⟨a', ha', sa, ca⟩ := held i a ha
    obtain ⟨b', hb', sb, cb⟩ := held j b hb
    exact h i j a' b' ha' hb' (by rw [← sa, ← sb, source]) (by rw [← ca, ← cb, channel])

theorem State.steady_setStreamLive {k : Fin 48} {st : Stream} (h : s.stream k = some st) (v : StreamLive) :
    s.Steady (s.setStreamLive k st v) :=
  s.steady_setStream fun _ e => ⟨st, h, by cases e; rfl, by cases e; rfl⟩

/-- A group written whose close, if any, it had before. -/
theorem State.steady_setGroup {g : Fin 4} {x : GroupClose}
    (stop : ∀ c, x.closing = some c → ∃ d, (s.group g).closing = some d ∧ d.stop.elapsed = c.stop.elapsed)
    (flag : ((s.group g).closing = none → (s.group g).deferred = false) → x.closing = none → x.deferred = false) :
    s.Steady (s.setGroup g x) where
  zero h r := by
    obtain ⟨hf, hl, hg⟩ := h r
    refine ⟨hf, hl, fun i => ?_⟩
    rw [State.group_setGroup]
    split
    · cases e : x.closing with
      | none => rfl
      | some c =>
        obtain ⟨d, hd, -⟩ := stop c e
        cases (hg g).symm.trans hd
    · exact hg i
  deferred h i := by
    rw [State.group_setGroup]
    split
    · exact flag (h g)
    · exact h i
  stops i c := by
    rw [State.group_setGroup]
    split
    · next e => exact fun hc => .inr (e ▸ stop c hc)
    · exact fun hc => .inr ⟨c, hc, rfl⟩

end
end Sys2Proof.Machine
end

section
/-! PROOFS. Reads, bookings and the stream table keep what every event keeps. -/

namespace Sys2Proof.Machine

set_option Elab.async false

/-! ### Bounds of the live sets (R9) -/

theorem inRange_zero_le (hi x : Nat) : inRange 0 hi x 0 ≤ hi := by
  unfold inRange
  split
  · omega
  · exact Nat.zero_le hi

theorem LiveBase.WithinCaps.empty : ({} : LiveBase).WithinCaps := by
  refine ⟨fun k => ?_, ?_, ?_, ?_, ?_⟩
  · cases k <;> decide
  all_goals decide

theorem Mass.WithinCaps.empty : ({} : Mass).WithinCaps := ⟨by decide, by decide⟩

/-- The bounds of a base hang on its accumulators alone. -/
theorem LiveBase.WithinCaps.fresh {held : HeldSet} {start : Stamp} : ({ held := held, start := start } : LiveBase).WithinCaps :=
  LiveBase.WithinCaps.empty

theorem FurnaceLive.WithinCaps.fresh {held : HeldSet} {start : Stamp} :
    ({ base := { held := held, start := start } } : FurnaceLive).WithinCaps :=
  ⟨LiveBase.WithinCaps.empty, Nat.zero_le _, Nat.zero_le _⟩

theorem LineLive.WithinCaps.fresh {held : HeldSet} {start : Stamp} :
    ({ base := { held := held, start := start } } : LineLive).WithinCaps :=
  ⟨LiveBase.WithinCaps.empty, .empty, .empty, .empty⟩

theorem Energy.get_put (e : Energy) (k j : Kind) (x : Nat) : (e.put k x).get j = if j = k then x else e.get j := by
  cases k <;> cases j <;> rfl

theorem LiveBase.WithinCaps.addEnergy {b : LiveBase} (h : b.WithinCaps) (k : Kind) (w : Nat) :
    (b.addEnergy k w).WithinCaps := by
  refine ⟨fun j => ?_, h.2⟩
  show (b.energy.put k _).get j ≤ cap48
  rw [Energy.get_put]
  split
  · exact satAdd_le _ _ _
  · exact h.1 j

theorem LiveBase.WithinCaps.addCredit {b : LiveBase} (h : b.WithinCaps) (w : Nat) : (b.addCredit w).WithinCaps :=
  ⟨h.1, satAdd_le _ _ _, h.2.2⟩

theorem LiveBase.WithinCaps.addEstimated {b : LiveBase} (h : b.WithinCaps) (w : Nat) :
    (b.addEstimated w).WithinCaps :=
  ⟨h.1, h.2.1, satAdd_le _ _ _, h.2.2.2⟩

theorem LiveBase.WithinCaps.addCorrection {b : LiveBase} (h : b.WithinCaps) (k : Int) :
    (b.addCorrection k).WithinCaps :=
  ⟨h.1, h.2.1, h.2.2.1, corrClamp_within _⟩

theorem Mass.WithinCaps.add (m : Mass) (t : Nat) : (m.add t).WithinCaps :=
  ⟨satAdd_le _ _ _, by simp only [Mass.add]; omega⟩

theorem LiveBase.WithinCaps.sanitized (b : LiveBase) : b.sanitized.WithinCaps := by
  refine ⟨fun k => ?_, inRange_zero_le _ _, inRange_zero_le _ _, ?_⟩
  · cases k <;> exact inRange_zero_le _ _
  · have kept : b.sanitized.correction = if corrOver b.correction then 0 else b.correction := rfl
    rw [kept]
    unfold corrOver corrLow corrHigh
    split
    · omega
    · next h =>
      have := of_decide_eq_false (eq_false_of_ne_true h)
      omega

theorem Mass.WithinCaps.sanitized (m : Mass) : m.sanitized.WithinCaps := ⟨inRange_zero_le _ _, inRange_zero_le _ _⟩

theorem FurnaceLive.WithinCaps.sanitized (x : FurnaceLive) : x.sanitized.WithinCaps :=
  ⟨.sanitized _, inRange_zero_le _ _, inRange_zero_le _ _⟩

theorem LineLive.WithinCaps.sanitized (x : LineLive) : x.sanitized.WithinCaps :=
  ⟨.sanitized _, .sanitized _, .sanitized _, .sanitized _⟩

/-! ### Reads (R144 to R150) -/

variable (s : State)

theorem State.steady_disarmed (it : Item) : s.Steady (s.disarmed it) := by
  unfold State.disarmed
  split
  · exact .refl s
  · exact .ite (fun _ => {}) fun _ => .refl s

theorem State.steady_recordFault (it : Item) : s.Steady (s.recordFault it) := {}

theorem ClosingSet.faulted_stop (c : ClosingSet) (a : Account) : (c.faulted a).stop = c.stop := by cases a <;> rfl

/-- The close of a group after a fault in it is the close before, with the same end. -/
theorem stop_of_map_faulted {o : Option ClosingSet} {a : Account} {c : ClosingSet}
    (h : (o.map fun c => c.faulted a) = some c) : ∃ d, o = some d ∧ d.stop.elapsed = c.stop.elapsed := by
  obtain ⟨d, hd, rfl⟩ := Option.map_eq_some_iff.mp h
  exact ⟨d, hd, by rw [d.faulted_stop]⟩

/-- A fault in a queued record leaves its group and period number. -/
theorem recordsInOrder_modify {s : State} {i : Nat} (h : s.RecordsInOrder) :
    ({ s with records := s.records.modify i GroupRecord.faulted } : State).RecordsInOrder := by
  obtain ⟨len, lost, order⟩ := h
  refine ⟨by simpa using len, lost, ?_⟩
  have key (l : List GroupRecord) :
      (l.modify i GroupRecord.faulted).map (fun r => (r.group, r.period)) = l.map fun r => (r.group, r.period) := by
    apply List.ext_getElem
    · simp
    · intro n h h'
      simp only [List.getElem_map, List.getElem_modify]
      split <;> rfl
  have pairs (l : List GroupRecord) : (l.Pairwise fun a b => a.group = b.group → a.period < b.period) ↔
      (l.map fun r => (r.group, r.period)).Pairwise fun a b => a.1 = b.1 → a.2 < b.2 := by
    rw [List.pairwise_map]
  show (s.records.modify i GroupRecord.faulted).Pairwise _
  rw [pairs, key, ← pairs]
  exact order

theorem State.steady_ownerFault (it : Item) : s.Steady (s.ownerFault it) := by
  cases it with
  | stream k => exact (s.steady_setStream (k := k) (x := none) fun _ e => by cases e).trans {}
  | config a => cases a <;> exact {}
  | live a =>
    dsimp only [State.ownerFault]
    split
    · next closes =>
      have busy : ¬(s.run = .idle ∨ s.run = .pass) := by rcases closes with h | h <;> simp [h]
      cases a with
      | furnace f => exact s.steady_setFLive (fun r => absurd r busy) fun _ => FurnaceLive.WithinCaps.sanitized _
      | line l => exact s.steady_setLLive (fun r => absurd r busy) fun _ => LineLive.WithinCaps.sanitized _
    · cases a with
      | furnace f => exact s.steady_setFLive (fun _ => rfl) fun _ => FurnaceLive.WithinCaps.fresh
      | line l => exact s.steady_setLLive (fun _ => rfl) fun _ => LineLive.WithinCaps.fresh
  | closing a =>
    cases a with
    | furnace f =>
      refine s.steady_setGroup (fun c hc => stop_of_map_faulted hc) fun flag none => flag ?_
      exact Option.map_eq_none_iff.mp none
    | line l =>
      have group (g : Fin 4) : (s.ownerFault (.closing (.line l))).group g =
          { s.group g with closing := (s.group g).closing.map fun c => c.faulted (.line l) } := vget_vgen _ _
      exact {
        zero := fun h r => by
          obtain ⟨hf, hl, hg⟩ := h r
          refine ⟨hf, hl, fun g => ?_⟩
          rw [group, hg]
          rfl
        deferred := fun h g => by
          rw [group]
          exact fun none => h g (Option.map_eq_none_iff.mp none)
        stops := fun g c => by
          rw [group]
          exact fun hc => .inr (stop_of_map_faulted hc) }
  | queue i => exact { records := recordsInOrder_modify }

theorem State.steady_touch (it : Item) : s.Steady (s.touch it) := by
  have read : s.Steady ((s.disarmed it).rewritten it) := (s.steady_disarmed it).trans {}
  unfold State.touch
  dsimp only
  split
  · exact .refl s
  · split
    · exact read.trans {}
    · exact (read.trans (State.steady_recordFault _ it)).trans (State.steady_ownerFault _ it)

theorem State.steady_touchAll (its : List Item) : s.Steady (s.touchAll its) := .foldl State.steady_touch its s

theorem State.steady_touchLoaded (k : Fin 48) : s.Steady (s.touchLoaded k) := by
  unfold State.touchLoaded
  split
  · exact s.steady_touch _
  · exact .refl s

/-- A read of another item leaves a stream entry. -/
theorem State.stream_touch {it : Item} {k : Fin 48} (h : it ≠ .stream k) : (s.touch it).stream k = s.stream k := by
  have read : ((s.disarmed it).rewritten it).stream k = s.stream k := by
    unfold State.disarmed
    split
    · rfl
    · split <;> rfl
  unfold State.touch
  dsimp only
  split
  · rfl
  · split
    · exact read
    · cases it with
      | stream j =>
        have other : j ≠ k := fun e => h (by rw [e])
        exact (State.stream_setStream_other _ other none).trans read
      | config a => cases a <;> exact read
      | live a =>
        simp only [State.ownerFault]
        split <;> cases a <;> exact read
      | closing a => cases a <;> exact read
      | queue i => exact read

/-! ### Bookings (03) -/

variable {s}

theorem State.steady_book (h : s.run = .run) (e : StreamEntry) (w : Nat) (est : Bool) : s.Steady (s.book e w est) := by
  unfold State.book
  cases e.category with
  | energy =>
    refine s.steady_setLiveBase_of_run h fun caps => ?_
    split
    · exact (caps.addEnergy _ _).addEstimated _
    · exact caps.addEnergy _ _
  | credit =>
    refine s.steady_setLiveBase_of_run h fun caps => ?_
    split
    · exact (caps.addCredit _).addEstimated _
    · exact caps.addCredit _
  | charge =>
    cases e.target with
    | furnace f => exact s.steady_setFLive_of_run h fun caps => ⟨caps.1, satAdd_le _ _ _, caps.2.2⟩
    | line l => exact .refl s
  | cullet =>
    cases e.target with
    | furnace f => exact s.steady_setFLive_of_run h fun caps => ⟨caps.1, caps.2.1, satAdd_le _ _ _⟩
    | line l => exact .refl s
  | gobw => exact .refl s

theorem State.steady_bookCorrection (h : s.run = .run) (e : StreamEntry) (k : Int) : s.Steady (s.bookCorrection e k) := by
  unfold State.bookCorrection
  cases e.category with
  | energy => exact s.steady_setLiveBase_of_run h fun caps => caps.addCorrection _
  | credit => exact s.steady_setLiveBase_of_run h fun caps => caps.addCorrection _
  | _ => exact .refl s

theorem State.steady_addHeld (s : State) (k : Fin 48) (e : StreamEntry) : s.Steady (s.addHeld k e) :=
  .ite (fun h => (s.steady_setLiveBase_of_run h (b := (s.liveBase e.target).hold k) fun caps => caps).trans {})
    fun _ => .refl s

theorem State.stream_book (s : State) (e : StreamEntry) (w : Nat) (est : Bool) (k : Fin 48) :
    (s.book e w est).stream k = s.stream k := by rw [State.book_frame]; rfl

theorem State.stream_bookCorrection (s : State) (e : StreamEntry) (c : Int) (k : Fin 48) :
    (s.bookCorrection e c).stream k = s.stream k := by rw [State.bookCorrection_frame]; rfl

theorem State.steady_estimate (s : State) (k : Fin 48) (amount : Nat) : s.Steady (s.estimate k amount) := by
  unfold State.estimate
  split
  · exact .refl s
  · next st hk =>
    refine .ite (fun h => ?_) fun _ => .refl s
    have read := s.steady_touch (.live st.entry.target)
    refine (read.trans (State.steady_book (read.run.trans h.2) _ _ _)).trans (State.steady_setStreamLive _ ?_ _)
    rw [State.stream_book, State.stream_touch _ (by simp), hk]

theorem State.steady_bookSample (s : State) (e : StreamEntry) (v : StreamLive) (m : Measured) :
    s.Steady (s.bookSample e v m).1 := by
  have read := s.steady_touch (.live e.target)
  unfold State.bookSample
  split
  · next h =>
    have running : (s.touch (.live e.target)).run = .run := read.run.trans h
    split
    · unfold State.bookDelta
      dsimp only
      split
      · have gap := State.steady_book running e (convert e.factor v.remainder m.gapAmount).1 true
        exact (read.trans gap).trans (State.steady_book (gap.run.trans running) _ _ _)
      · exact read.trans (State.steady_book running _ _ _)
    · unfold State.bookReturn
      dsimp only
      split
      · exact read.trans (State.steady_bookCorrection running _ _)
      · exact read.trans (State.steady_book running _ _ _)
  · exact .refl s

theorem State.stream_bookSample (s : State) (e : StreamEntry) (v : StreamLive) (m : Measured) (k : Fin 48) :
    (s.bookSample e v m).1.stream k = s.stream k := by
  have read : (s.touch (.live e.target)).stream k = s.stream k := s.stream_touch (by simp)
  unfold State.bookSample State.bookDelta State.bookReturn
  dsimp only
  split
  · split
    · split <;> simp only [State.stream_book, read]
    · split <;> simp only [State.stream_book, State.stream_bookCorrection, read]
  · rfl

theorem State.steady_countingSample {k : Fin 48} {st : Stream} (hk : s.stream k = some st) (f : Format) (smp : Sample) :
    s.Steady (s.countingSample k st f smp) := by
  unfold State.countingSample
  dsimp only
  split
  · exact s.steady_setStreamLive hk _
  · split
    · exact (s.steady_setStreamLive hk _).trans {}
    · exact (s.steady_bookSample _ _ _).trans (State.steady_setStreamLive _ ((s.stream_bookSample _ _ _ k).trans hk) _)

theorem State.steady_gobValue (s : State) (k : Fin 48) (value : Nat) : s.Steady (s.gobValue k value) := by
  unfold State.gobValue
  split
  · exact .refl s
  · next st hk =>
    split
    · exact .refl s
    · next l target =>
      have read := s.steady_touch (.config (.line l))
      dsimp only
      split
      · exact read.trans {}
      · have counted := read.trans (State.steady_setStreamLive _ ((s.stream_touch (by simp)).trans hk)
          { st.live with counts := { st.live.counts with weightHolds := bump st.live.counts.weightHolds } })
        split
        · next running =>
          have again := counted.trans (State.steady_touch _ (.live (.line l)))
          refine (again.trans (State.steady_setLLive_of_run _ (again.run.trans (counted.run.symm.trans running))
            fun caps => ?_)).trans (State.steady_addHeld _ _ _)
          exact caps
        · exact counted

theorem State.steady_holdStream (s : State) (k : Fin 48) : s.Steady (s.holdStream k) := by
  unfold State.holdStream
  split
  · next st hk => exact .ite (fun _ => s.steady_setStreamLive hk _) fun _ => .refl s
  · exact .refl s

theorem State.steady_cutRequest (h : s.run = .run) (l : Fin 8) (ks : List (Fin 48)) : s.Steady (s.cutRequest l ks) := by
  have counted := State.Steady.foldl State.steady_holdStream ks s
  unfold State.cutRequest
  dsimp only
  split
  · exact counted.trans (State.steady_setLLive_of_run _ (counted.run.trans h) fun caps => caps)
  · exact counted

/-! ### The stream table (02) -/

theorem State.steady_hear (s : State) (src : Byte) (ch : Nat) (kind : Byte) : s.Steady (s.hear src ch kind) :=
  .ite (fun _ => {}) fun _ => {}

theorem State.steady_pushLocal (s : State) (p : Side) (f : Frame) : s.Steady (s.pushLocal p f) := by
  unfold State.pushLocal
  split
  · next room =>
    obtain ⟨up, free⟩ := room
    cases p with
    | field => exact {
        queues := fun h => ⟨⟨by
          simp only [State.setPort, State.port, Port.slots, localCap, List.length_append, List.length_singleton] at free ⊢
          omega, h.1.2⟩, h.2⟩
        ports := fun h => ⟨⟨h.1.1, fun down => absurd up down⟩, h.2⟩ }
    | plant => exact {
        queues := fun h => ⟨⟨h.1.1, by
          simp only [State.setPort, State.port, Port.slots, localCap, List.length_append, List.length_singleton] at free ⊢
          omega⟩, h.2⟩
        ports := fun h => ⟨h.1, ⟨h.2.1, fun down => absurd up down⟩⟩ }
  · exact .refl s

section
variable {k : Fin 48} {st : Stream} (hk : s.stream k = some st)
include hk

theorem State.steady_faultFormat (v : StreamLive) : s.Steady (s.faultFormat k st v) :=
  (s.steady_setStreamLive hk _).trans {}

theorem State.steady_takeBase (v : StreamLive) (f : Format) (smp : Sample) : s.Steady (s.takeBase k st v f smp) := by
  unfold State.takeBase
  dsimp only
  split
  · exact (s.steady_setStreamLive hk _).trans (State.steady_gobValue _ _ _)
  · exact s.steady_setStreamLive hk _

theorem State.steady_sampleInWait (smp : Sample) : s.Steady (s.sampleInWait k st smp) := by
  unfold State.sampleInWait
  split
  · exact State.steady_takeBase hk _ _ _
  · exact State.steady_faultFormat hk _

theorem State.steady_sampleInSelect (smp : Sample) : s.Steady (s.sampleInSelect k st smp) := by
  unfold State.sampleInSelect
  split
  · exact .ite (fun _ => State.steady_takeBase hk _ _ _) fun _ => s.steady_setStreamLive hk _
  · exact s.steady_setStreamLive hk _

omit hk in
theorem State.steady_enterStale (s : State) (k : Fin 48) : s.Steady (s.enterStale k) := by
  unfold State.enterStale
  split
  · exact .refl s
  · next st hk =>
    exact (((s.steady_setStreamLive hk _).trans (State.steady_estimate _ _ _)).trans {}).trans
      (State.steady_addHeld _ _ _)

omit hk in
theorem State.steady_enterLost (s : State) (k : Fin 48) : s.Steady (s.enterLost k) := by
  unfold State.enterLost
  split
  · exact .refl s
  · next st hk => exact ((s.steady_setStreamLive hk _).trans {}).trans (State.steady_addHeld _ _ _)

theorem State.steady_formatFaultBound : s.Steady (s.formatFaultBound k st) := by
  have faulted : s.Steady ((s.setStreamLive k st
      { st.live.formatFault with base := none, lastSeq := none, pending := 0 }).raiseStream k .format) :=
    (s.steady_setStreamLive hk _).trans {}
  unfold State.formatFaultBound
  exact .ite (fun _ => faulted.trans (State.steady_enterStale _ _)) fun _ => faulted.trans (State.steady_addHeld _ _ _)

theorem State.steady_handOver (f : Format) (smp : Sample) : s.Steady (s.handOver k st f smp) :=
  .ite (fun _ => State.steady_countingSample hk _ _) fun _ =>
    (s.steady_setStreamLive hk _).trans (State.steady_gobValue _ _ _)

theorem State.steady_sampleWhileBound (smp : Sample) : s.Steady (s.sampleWhileBound k st smp) := by
  unfold State.sampleWhileBound
  split
  · split
    · exact .ite (fun _ => State.steady_handOver hk _ _) fun _ => State.steady_formatFaultBound hk
    · exact State.steady_formatFaultBound hk
  · split
    · exact State.steady_takeBase hk _ _ _
    · exact State.steady_faultFormat hk _

theorem State.steady_offerFormat (v : StreamLive) (f : Format) : s.Steady (s.offerFormat k st v f) :=
  (s.steady_setStreamLive hk _).trans (State.steady_pushLocal _ _ _)

theorem State.steady_heloInWait (v : StreamLive) (named : FormatSet) : s.Steady (s.heloInWait k st v named) := by
  unfold State.heloInWait
  split
  · exact s.steady_setStreamLive hk _
  · split
    · exact State.steady_offerFormat hk _ _
    · exact State.steady_faultFormat hk _

theorem State.steady_heloInSelect (named : FormatSet) : s.Steady (s.heloInSelect k st named) := by
  unfold State.heloInSelect
  split
  · exact State.steady_offerFormat hk _ _
  · exact State.steady_faultFormat hk _

end

theorem State.stream_addHeld (s : State) (k j : Fin 48) (e : StreamEntry) : (s.addHeld k e).stream j = s.stream j := by
  rw [State.addHeld_frame]; rfl

/-- A helo in WAIT keeps, from any stream of the same entry. -/
theorem State.steady_heloInWait_of_entry {k : Fin 48} {st old : Stream} (hk : s.stream k = some old)
    (he : old.entry = st.entry) (v : StreamLive) (named : FormatSet) : s.Steady (s.heloInWait k st v named) := by
  have same : s.heloInWait k st v named = s.heloInWait k old v named := by
    simp only [State.heloInWait, State.offerFormat, State.faultFormat, State.setStreamLive, he]
  rw [same]
  exact State.steady_heloInWait hk v named

theorem State.steady_restart {k : Fin 48} {st : Stream} (hk : s.stream k = some st) (named : FormatSet) :
    s.Steady (s.restart k st named) := by
  have restarted (v : StreamLive) :
      s.Steady ((((s.setStreamLive k st v).raiseStream k .format).addHeld k st.entry).heloInWait k st v named) := by
    have raised : s.Steady ((s.setStreamLive k st v).raiseStream k .format) := (s.steady_setStreamLive hk v).trans {}
    have waits : (((s.setStreamLive k st v).raiseStream k .format).addHeld k st.entry).stream k =
        some { st with live := v } := by
      rw [State.stream_addHeld]
      exact s.stream_setStreamLive_same k st v
    exact (raised.trans (State.steady_addHeld _ _ _)).trans (State.steady_heloInWait_of_entry waits rfl v named)
  exact restarted _

theorem State.steady_streamSample (s : State) (k : Fin 48) (smp : Sample) : s.Steady (s.streamSample k smp) := by
  unfold State.streamSample
  split
  · exact .refl s
  · next st hk =>
    split
    · exact .refl s
    · exact State.steady_sampleInWait hk _
    · exact State.steady_sampleInSelect hk _
    all_goals exact State.steady_sampleWhileBound hk _

theorem State.steady_streamHelo (s : State) (k : Fin 48) (named : FormatSet) : s.Steady (s.streamHelo k named) := by
  unfold State.streamHelo
  split
  · exact .refl s
  · next st hk =>
    split
    · exact .refl s
    · exact State.steady_heloInWait hk _ _
    · exact State.steady_heloInSelect hk _
    all_goals exact State.steady_restart hk _

theorem State.steady_matchFrame (s : State) (src : Byte) (ch : Nat) (kind : Byte) {act : Fin 48 → State → State}
    (h : ∀ (k : Fin 48) (t : State), t.Steady (act k t)) : s.Steady (s.matchFrame src ch kind act) := by
  unfold State.matchFrame
  refine .ite (fun _ => .refl s) fun _ => ?_
  split
  · exact s.steady_hear _ _ _
  · exact .ite (fun _ => (s.steady_touch _).trans (h _ _)) fun _ => s.steady_hear _ _ _

theorem State.steady_tapSmpl (s : State) (src : Byte) (payload : List Byte) : s.Steady (s.tapSmpl src payload) := by
  unfold State.tapSmpl
  split
  · exact .refl s
  · exact s.steady_matchFrame _ _ _ fun k t => t.steady_streamSample k _

theorem State.steady_tapHelo (s : State) (src : Byte) (payload : List Byte) : s.Steady (s.tapHelo src payload) := by
  unfold State.tapHelo
  split
  · exact .refl s
  · exact s.steady_matchFrame _ _ _ fun k t => t.steady_streamHelo k _

theorem State.steady_streamTimer (s : State) (k : Fin 48) (isDue : StreamLive → Bool) {act : Stream → State → State}
    (h : ∀ (st : Stream) (t : State), t.stream k = some st → t.Steady (act st t)) :
    s.Steady (s.streamTimer k isDue act) := by
  unfold State.streamTimer
  refine .ite (fun _ => .refl s) fun _ => ?_
  split
  · exact .refl s
  · refine .ite (fun _ => ?_) fun _ => .refl s
    dsimp only
    split
    · exact s.steady_touch _
    · next st hk => exact (s.steady_touch _).trans (h st _ hk)

theorem State.steady_selectExpiry (s : State) (k : Fin 48) : s.Steady (s.selectExpiry k) :=
  s.steady_streamTimer k _ fun _ t hk => t.steady_setStreamLive hk _

theorem State.steady_staleExpiry (s : State) (k : Fin 48) : s.Steady (s.staleExpiry k) :=
  s.steady_streamTimer k _ fun _ t hk => .ite (fun _ => t.steady_setStreamLive hk _) fun _ => t.steady_enterStale k

theorem State.steady_intervalExpiry (s : State) (k : Fin 48) : s.Steady (s.intervalExpiry k) :=
  s.steady_streamTimer k _ fun _ t hk => (t.steady_setStreamLive hk _).trans (State.steady_estimate _ _ _)

theorem State.steady_holdExpiry (s : State) (k : Fin 48) : s.Steady (s.holdExpiry k) :=
  s.steady_streamTimer k _ fun _ t _ => .ite
    (fun _ => (t.steady_enterStale k).trans (State.steady_enterLost _ k)) fun _ => t.steady_enterLost k

theorem State.steady_finishBlanking (s : State) (f : Fin 4) : s.Steady (s.finishBlanking f) := by
  unfold State.finishBlanking
  exact (State.Steady.trans {} (State.steady_touchAll _ _)).trans (.foldl State.steady_enterStale _ _)

end Sys2Proof.Machine
end

section
/-! PROOFS. The tally inputs, the close engine and the record queue keep what every event keeps. -/

namespace Sys2Proof.Machine

set_option Elab.async false

variable {s : State}

/-- Operations that keep in RUN keep one after the other in RUN. -/
theorem State.Steady.foldl_of_run {α : Type} {f : State → α → State}
    (h : ∀ (s : State) (a : α), s.run = .run → s.Steady (f s a)) (l : List α) {s : State} (hr : s.run = .run) :
    s.Steady (l.foldl f s) := by
  induction l generalizing s with
  | nil => exact .refl s
  | cons a l ih => exact (h s a hr).trans (ih ((h s a hr).run.trans hr))

/-! ### The tally inputs (04) -/

theorem State.steady_startTracking (s : State) : s.Steady s.startTracking :=
  (State.Steady.foldl (f := fun t l => if t.lineTracked l then t.startLine l else t)
    (fun _ _ => .ite (fun _ => {}) fun _ => .refl _) _ s).trans
  (.foldl (f := fun t f => if t.furnaceTracked f then t.startFurnace f else t)
    (fun _ _ => .ite (fun _ => {}) fun _ => .refl _) _ _)

theorem State.steady_pinChange (s : State) (x : Pin) (b : Bool) : s.Steady (s.pinChange x b) := by
  cases x <;> exact {}

theorem LineLive.WithinCaps.bookCut {x : LineLive} (h : x.WithinCaps) (mass : Nat) (over2 : Bool) (i : Option Nat)
    (same : Bool) : (x.bookCut mass over2 i same).WithinCaps := by
  unfold LineLive.bookCut
  cases over2 with
  | true => exact ⟨h.1, h.2.1, .add _ _, h.2.2.2⟩
  | false => exact ⟨h.1, .add _ _, h.2.2⟩

theorem State.steady_bookCut (h : s.run = .run) (l : Fin 8) (i : Option Nat) (ks : List (Fin 48)) :
    s.Steady (s.bookCut l i ks) := by
  have read := s.steady_touch (.live (.line l))
  have running := read.run.trans h
  have booked (x : LineLive) (hx : ((s.touch (.live (.line l))).lLive l).WithinCaps → x.WithinCaps) (y : LineInput) :
      s.Steady ((((s.touch (.live (.line l))).setLLive l x).setLineInput l y).cutRequest l ks) :=
    (read.trans ((State.steady_setLLive_of_run _ running hx).trans {})).trans
      (State.steady_cutRequest (by exact running) l ks)
  exact booked _ (fun caps => caps.bookCut _ _ _ _) _

theorem State.steady_cutRise (s : State) (l : Fin 8) : s.Steady (s.cutRise l) := by
  unfold State.cutRise
  dsimp only
  generalize (s.lineInput l).cutAccepted (s.lineAsRead l).spacing s.now = accepted
  have read : s.Steady ((if accepted = true ∧ s.run = .run then s.touchAll ((s.gobStreams l).map Item.stream)
      else s).touch (.config (.line l))) :=
    (State.Steady.ite (fun _ => s.steady_touchAll _) fun _ => .refl s).trans (State.steady_touch _ _)
  generalize (if accepted = true ∧ s.run = .run then s.touchAll ((s.gobStreams l).map Item.stream)
    else s).touch (.config (.line l)) = t at read ⊢
  refine .ite (fun _ => .ite (fun running => ?_) fun _ => read.trans {}) fun _ => read.trans {}
  exact (read.trans {}).trans (State.steady_bookCut running l _ _)

theorem State.steady_cutEdge (s : State) (l : Fin 8) : s.Steady (s.cutEdge l) :=
  .ite (fun _ => .trans {} (State.steady_cutRise _ l)) fun _ => .refl s

theorem State.steady_rejectRise (s : State) (l : Fin 8) : s.Steady (s.rejectRise l) := by
  unfold State.rejectRise
  dsimp only
  split
  · split
    · next running =>
      have noted : s.Steady (s.setLineInput l { s.lineInput l with lastReject := some s.now }) := {}
      have read := (noted.trans (State.steady_touch _ (.config (.line l)))).trans (State.steady_touch _ (.live (.line l)))
      exact read.trans (State.steady_setLLive_of_run _ (read.run.trans running)
        fun caps => ⟨caps.1, caps.2.1, caps.2.2.1, .add _ _⟩)
    · exact {}
  · exact {}

theorem State.steady_rejEdge (s : State) (l : Fin 8) : s.Steady (s.rejEdge l) :=
  .ite (fun _ => .trans {} (State.steady_rejectRise _ l)) fun _ => .refl s

theorem State.steady_fallingEdge (s : State) (p : EdgePin) : s.Steady (s.fallingEdge p) := by
  cases p <;> exact .ite (fun _ => {}) fun _ => .refl s

theorem State.steady_divChange (s : State) (l : Fin 8) : s.Steady (s.divChange l) :=
  .ite (fun _ => {}) fun _ => .refl s

theorem State.steady_stopExpiry (s : State) (l : Fin 8) : s.Steady (s.stopExpiry l) :=
  .ite (fun _ => (s.steady_touch _).trans {}) fun _ => .refl s

theorem State.steady_retime (s : State) (l : Fin 8) : s.Steady (s.retime l) := by
  unfold State.retime
  dsimp only
  split
  · exact .ite (fun _ => {}) fun _ => {}
  · exact .refl s

theorem State.steady_accrueSecond (s : State) (l : Fin 8) (h : s.run = .run) : s.Steady (s.accrueSecond l) := by
  have read := s.steady_touch (.live (.line l))
  have running := read.run.trans h
  unfold State.accrueSecond
  refine .ite (fun _ => ?_) fun _ => .refl s
  exact .ite (fun _ => read.trans (State.steady_setLLive_of_run _ running fun caps => caps))
    fun _ => read.trans (State.steady_setLLive_of_run _ running fun caps => caps)

theorem State.steady_secondMark (s : State) : s.Steady s.secondMark := by
  have taken : s.Steady { s with clock := { s.clock with secondDue := false } } :=
    { secondDue := fun h => by cases h }
  exact .ite (fun _ => .ite (fun running => taken.trans (.foldl_of_run State.steady_accrueSecond _ running))
    fun _ => taken) fun _ => .refl s

theorem State.steady_reverse (s : State) (f : Fin 4) : s.Steady (s.reverse f) := by
  unfold State.reverse
  dsimp only
  generalize (decide ((s.furnaceAsRead f).blanking = 0) && s.inBlanking f) = ends
  have read : s.Steady ((if ends = true then s.touchAll ((s.deferredOn f).map Item.stream) else s).touch
      (.config (.furnace f))) :=
    (State.Steady.ite (fun _ => s.steady_touchAll _) fun _ => .refl s).trans (State.steady_touch _ _)
  generalize (if ends = true then s.touchAll ((s.deferredOn f).map Item.stream) else s).touch (.config (.furnace f)) = t
    at read ⊢
  have counts {u : State} (h : s.Steady u) (i : Option Nat) : s.Steady (if u.run = .run then
      (u.touch (.live (.furnace f))).setFLive f { (u.touch (.live (.furnace f))).fLive f with
        reversals := bump ((u.touch (.live (.furnace f))).fLive f).reversals
        lastReversal := i.getD ((u.touch (.live (.furnace f))).fLive f).lastReversal }
      else u) := by
    refine .ite (fun running => ?_) fun _ => h
    have read := h.trans (u.steady_touch (.live (.furnace f)))
    exact read.trans (State.steady_setFLive_of_run _ ((u.steady_touch _).run.trans running) fun caps => caps)
  refine counts (.ite (fun _ => ?_) fun _ => .ite (fun _ => ?_) fun _ => ?_) _
  · exact read.trans {}
  · exact (read.trans {}).trans (State.steady_finishBlanking _ f)
  · exact read.trans {}

theorem State.steady_revEdge (s : State) (f : Fin 4) : s.Steady (s.revEdge f) :=
  .ite (fun _ => .trans {} (State.steady_reverse _ f)) fun _ => .refl s

theorem State.steady_blankingExpiry (s : State) (f : Fin 4) : s.Steady (s.blankingExpiry f) :=
  .ite (fun _ => s.steady_finishBlanking f) fun _ => .refl s

/-! ### The plant clock (05) -/

/-- R98: a boundary computed anew is not due. -/
theorem State.boundaryFrom_not_due (s : State) (g : Fin 4) : due (s.boundaryFrom g) s.clock.sec = false := by
  unfold State.boundaryFrom
  split
  · cases h : nextBoundary (s.furnaceCfg g).offset (s.furnaceCfg g).length s.clock.sec with
    | none => rfl
    | some t => simpa [due] using lt_nextBoundary h
  · rfl

theorem State.steady_setBoundary {g : Fin 4} {t : Option Nat} (h : due t s.clock.sec = false) :
    s.Steady (s.setBoundary g t) where
  boundary i hi := by
    unfold State.boundaryDue
    rw [State.boundary_setBoundary]
    split
    · exact h
    · exact hi

theorem State.steady_touchBoundary (s : State) (g : Fin 4) : s.Steady (s.touchBoundary g) :=
  .ite (fun _ => s.steady_touch _) fun _ => .refl s

theorem State.steady_computeBoundary (s : State) (g : Fin 4) : s.Steady (s.computeBoundary g) :=
  (s.steady_touchBoundary g).trans (State.steady_setBoundary (State.boundaryFrom_not_due _ g))

theorem State.steady_plantWrap (s : State) : s.Steady s.plantWrap :=
  .ite (fun _ => State.Steady.trans (t := { s with clock := { s.clock with wrapDue := false } })
    { wrapDue := fun h => by cases h } (.foldl State.steady_computeBoundary _ _)) fun _ => .refl s

/-- R101: the marks of a jump are made where closes are taken. -/
theorem State.keeps_markAdjusted (s : State) : s.Keeps s.markAdjusted := by
  unfold State.markAdjusted
  split
  · next closes =>
    refine { zero := fun _ r => ?_, live := fun h => ⟨fun f => ?_, fun l => ?_⟩ }
    · rcases closes with h | h <;> rcases r with r | r <;> cases h.symm.trans r
    · simp only [State.fLive, vget_vgen]
      split
      · exact h.1 f
      · exact h.1 f
    · simp only [State.lLive, vget_vgen]
      split
      · exact h.2 l
      · exact h.2 l
  · exact .refl s

/-! ### The close engine (06) -/

/-- R108: a swap after what keeps, where closes are taken or a close has been in flight. -/
theorem State.Steady.swapFill {s u : State} (h : s.Steady u) (g : Fin 4) (cause : Cause)
    (closing : s.ZeroOutsideAccounting → ¬(s.run = .idle ∨ s.run = .pass)) : s.Steady (u.swapFill g cause) := by
  have group (i : Fin 4) : (u.swapFill g cause).group i = if g = i then
      { u.group g with closing := some (u.closingOf g cause), period := nextPeriod (u.group g).period }
      else u.group i := vget_vset _ _ _ _
  exact {
    h with
    zero := fun z r => absurd (by rwa [← h.run]) (closing z)
    deferred := fun d i => by
      rw [group]
      split
      · exact fun none => by cases none
      · exact h.deferred d i
    live := fun caps => by
      obtain ⟨hf, hl⟩ := h.live caps
      refine ⟨fun f => ?_, fun l => ?_⟩
      · unfold State.fLive State.swapFill
        rw [vget_vset]
        split
        · exact FurnaceLive.WithinCaps.fresh
        · exact hf f
      · unfold State.lLive State.swapFill
        rw [vget_vgen]
        split
        · exact LineLive.WithinCaps.fresh
        · exact hl l
    stops := fun i c => by
      rw [group]
      split
      · intro hc
        cases hc
        exact .inl h.elapsed
      · exact h.stops i c }

theorem State.not_idle_of_closes (h : s.closes = true) : ¬(s.run = .idle ∨ s.run = .pass) := by
  rw [← State.closes_eq_false_iff, h]
  exact Bool.noConfusion

theorem State.steady_swap (h : s.closes = true) (g : Fin 4) (cause : Cause) : s.Steady (s.swap g cause) :=
  (s.steady_touchAll _).swapFill g cause fun _ => State.not_idle_of_closes h

theorem State.closes_of_steady {s t : State} (h : s.Steady t) : t.closes = s.closes := by
  unfold State.closes
  rw [h.run]

theorem State.steady_trigger (s : State) (g : Fin 4) (cause : Cause) (h : s.closes = true) :
    s.Steady (s.trigger g cause) := by
  unfold State.trigger
  split
  · next closing =>
    refine s.steady_setGroup (fun c hc => ⟨c, hc, rfl⟩) fun _ (idle : (s.group g).closing = none) => ?_
    rw [State.isClosing, idle] at closing
    cases closing
  · exact State.steady_swap h g cause

theorem State.steady_takeMark (s : State) (src : Byte) (payload : List Byte) : s.Steady (s.takeMark src payload) := by
  have triggers (closes : s.closes = true) (gs : List (Fin 4)) {t : State} (h : s.Steady t) :
      s.Steady (gs.foldl (fun t g => t.trigger g .mark) t) := by
    induction gs generalizing t with
    | nil => exact h
    | cons g gs ih => exact ih (h.trans (t.steady_trigger g .mark ((State.closes_of_steady h).trans closes)))
  cases payload with
  | nil => exact .refl s
  | cons mask _ =>
    exact .ite (fun closes => triggers closes _ (.trans (.ite (fun _ => s.steady_touchAll _) fun _ => .refl s)
      (State.steady_touchAll _ _))) fun _ => .refl s

theorem State.steady_boundaryReached (s : State) (g : Fin 4) : s.Steady (s.boundaryReached g) :=
  (State.Steady.ite (fun closes => s.steady_trigger g .timed closes) fun _ => .refl s).trans
    (State.steady_computeBoundary _ g)

theorem State.steady_boundaryEvent (s : State) (g : Fin 4) : s.Steady (s.boundaryEvent g) :=
  .ite (fun _ => s.steady_boundaryReached g) fun _ => .refl s

theorem State.keeps_jump (s : State) (sec ms : Nat) : s.Keeps (s.jump sec ms) := by
  have marked : s.Keeps ({ s with clock := { s.clock with sec := sec, ms := ms, timeSet := true } } : State).markAdjusted :=
    State.Keeps.trans {} (State.keeps_markAdjusted _)
  have group (t : State) (g : Fin 4) : t.Keeps (t.jumpGroup g) :=
    .ite (fun _ => (t.steady_boundaryReached g).toKeeps) fun _ => (t.steady_computeBoundary g).toKeeps
  exact (marked.trans (.ite (fun _ => (State.steady_touchAll _ _).toKeeps) fun _ => .refl _)).trans (.foldl group _ _)

/-! ### The record queue (07) -/

/-- Entries erased from the last to the first, at the places where they meet `p`. -/
theorem foldl_eraseIdx_filter {α : Type} (p : α → Bool) (l : List α) :
    ((List.range l.length).filter fun i => (l[i]?).any p).reverse.foldl List.eraseIdx l = l.filter fun x => !p x := by
  have behind (is : List Nat) (x : α) (l : List α) :
      (is.map Nat.succ).foldl List.eraseIdx (x :: l) = x :: is.foldl List.eraseIdx l := by
    induction is generalizing l with
    | nil => rfl
    | cons i is ih => exact ih _
  induction l with
  | nil => rfl
  | cons x l ih =>
    have split : (List.range (x :: l).length).filter (fun i => ((x :: l)[i]?).any p) =
        (if p x then [0] else []) ++ ((List.range l.length).filter fun i => (l[i]?).any p).map Nat.succ := by
      rw [List.length_cons, List.range_succ_eq_map, List.filter_cons, List.filter_map]
      have shift : ((fun i => ((x :: l)[i]?).any p) ∘ Nat.succ) = fun i => (l[i]?).any p := by
        funext i
        simp
      rw [shift]
      by_cases h : p x <;> simp [h]
    rw [split, List.reverse_append, List.foldl_append, ← List.map_reverse, behind, ih]
    by_cases h : p x <;> simp [h]

theorem State.foldl_discardRecord_records (is : List Nat) (s : State) :
    (is.foldl State.discardRecord s).records = is.foldl List.eraseIdx s.records := by
  induction is generalizing s with
  | nil => rfl
  | cons i is ih => exact ih _

theorem State.foldl_discardRecord_lost (is : List Nat) (s : State) :
    (is.foldl State.discardRecord s).lost = if is.length = 0 then s.lost else min 65535 (s.lost + is.length) := by
  induction is generalizing s with
  | nil => rfl
  | cons i is ih =>
    have first : (s.discardRecord i).lost = min 65535 (s.lost + 1) := satAdd_eq _ _ _
    rw [List.foldl_cons, ih, first, List.length_cons, if_neg (Nat.succ_ne_zero _)]
    split <;> omega

/-- R132: the records of the group that the new one supersedes leave the queue. -/
theorem State.foldl_discardRecord_outOfOrder (s : State) (r : GroupRecord) :
    ((s.outOfOrder r).foldl State.discardRecord s).records =
      s.records.filter fun x => !decide (x.group = r.group ∧ r.period ≤ x.period) := by
  rw [State.foldl_discardRecord_records, ← foldl_eraseIdx_filter]
  unfold State.outOfOrder
  congr 3
  funext i
  cases s.records[i]? <;> rfl

/-- A discard changes the queue, the lost count and the check unit's errors alone. -/
theorem State.steady_discardRecord (s : State) (i : Nat) : s.Steady (s.discardRecord i) where
  records h := by
    obtain ⟨len, lost, order⟩ := h
    exact ⟨(List.length_eraseIdx_le _ _).trans len, satAdd_le _ _ _, order.sublist (List.eraseIdx_sublist _ _)⟩

theorem State.steady_appendRecord (s : State) (r : GroupRecord) : s.Steady (s.appendRecord r) := by
  have cleared := State.Steady.foldl State.steady_discardRecord (s.outOfOrder r) s
  have kept := s.foldl_discardRecord_outOfOrder r
  unfold State.appendRecord
  dsimp only
  revert cleared kept
  generalize (s.outOfOrder r).foldl State.discardRecord s = t
  intro cleared kept
  have room : s.Steady (if decide (Config.queueRecords ≤ t.records.length) = true then t.discardRecord 0 else t) :=
    .ite (fun _ => cleared.trans (t.steady_discardRecord 0)) fun _ => cleared
  have below : ∀ x ∈ (if decide (Config.queueRecords ≤ t.records.length) = true then t.discardRecord 0 else t).records,
      x.group = r.group → x.period < r.period := by
    intro x hx same
    have mem : x ∈ t.records := by
      split at hx
      · exact List.mem_of_mem_eraseIdx hx
      · exact hx
    rw [kept, List.mem_filter] at mem
    simpa [same] using mem.2
  have short : s.RecordsInOrder →
      (if decide (Config.queueRecords ≤ t.records.length) = true then t.discardRecord 0 else t).records.length < 32 := by
    intro h
    have := (cleared.records h).1
    split
    · next full =>
      have many : 32 ≤ t.records.length := of_decide_eq_true full
      have nonempty : 0 < t.records.length := by omega
      show (t.records.eraseIdx 0).length < 32
      rw [List.length_eraseIdx, if_pos nonempty]
      omega
    · next room =>
      have : ¬32 ≤ t.records.length := of_decide_eq_false (eq_false_of_ne_true room)
      omega
  refine { room with records := fun h => ?_ }
  obtain ⟨-, lost, order⟩ := room.records h
  refine ⟨?_, lost, ?_⟩
  · rw [List.length_append, List.length_singleton]
    have := short h
    omega
  · exact List.pairwise_append.mpr ⟨order, List.pairwise_singleton _ _, fun x hx y hy same => by
      cases List.mem_singleton.mp hy
      exact below x hx same⟩

theorem State.steady_removeRecord (s : State) (i : Nat) : s.Steady (s.removeRecord i) where
  records h := by
    obtain ⟨len, lost, order⟩ := h
    exact ⟨(List.length_eraseIdx_le _ _).trans len, lost, order.sublist (List.eraseIdx_sublist _ _)⟩

theorem State.steady_raiseRato (s : State) (f : Option (Fin 4)) (ls : List (Fin 8)) : s.Steady (s.raiseRato f ls) :=
  .ite (fun _ => {}) fun _ => .refl s

/-- What a read makes of a group: its close stays, with the same deferred flag and period number. -/
theorem State.group_touch (s : State) (it : Item) (g : Fin 4) :
    ∃ o : Option ClosingSet, (s.touch it).group g = { s.group g with closing := o } ∧
      o.isSome = (s.group g).closing.isSome := by
  have read : ((s.disarmed it).rewritten it).group g = s.group g := by
    unfold State.disarmed
    split
    · rfl
    · split <;> rfl
  have same {t : State} (h : t.group g = s.group g) : ∃ o : Option ClosingSet, t.group g = { s.group g with closing := o } ∧
      o.isSome = (s.group g).closing.isSome := ⟨_, h, rfl⟩
  unfold State.touch
  dsimp only
  split
  · exact same rfl
  · split
    · exact same read
    · cases it with
      | stream k => exact same read
      | config a => cases a <;> exact same read
      | live a =>
        dsimp only [State.ownerFault]
        split <;> cases a <;> exact same read
      | closing a =>
        cases a with
        | furnace f =>
          by_cases e : f = g
          · subst e
            refine ⟨(s.group f).closing.map fun c => c.faulted (.furnace f), ?_, Option.isSome_map⟩
            exact (State.group_setGroup_same _ f _).trans (by rw [← read]; rfl)
          · exact same ((State.group_setGroup_other _ e _).trans read)
        | line l =>
          refine ⟨(s.group g).closing.map fun c => c.faulted (.line l), ?_, Option.isSome_map⟩
          exact (vget_vgen _ _).trans (by rw [← read]; rfl)
      | queue i => exact same read

theorem State.group_touchAll (its : List Item) (s : State) (g : Fin 4) :
    ∃ o : Option ClosingSet, (s.touchAll its).group g = { s.group g with closing := o } ∧
      o.isSome = (s.group g).closing.isSome := by
  induction its generalizing s with
  | nil => exact ⟨_, rfl, rfl⟩
  | cons it its ih =>
    obtain ⟨o, ho, some⟩ := s.group_touch it g
    obtain ⟨p, hp, some'⟩ := ih (s.touch it)
    rw [ho] at hp some'
    exact ⟨p, hp, some'.trans some⟩

/-- R132: an append moves the queue, the lost count and, with the records that leave, errors of the queue's items. -/
theorem State.appendRecord_frame (s : State) (r : GroupRecord) :
    s.appendRecord r = { s with
      records := (s.appendRecord r).records, lost := (s.appendRecord r).lost
      check := (s.appendRecord r).check, latent := (s.appendRecord r).latent } := by
  have discards (is : List Nat) (t : State) : is.foldl State.discardRecord t = { t with
      records := (is.foldl State.discardRecord t).records, lost := (is.foldl State.discardRecord t).lost
      check := (is.foldl State.discardRecord t).check, latent := (is.foldl State.discardRecord t).latent } := by
    induction is generalizing t with
    | nil => rfl
    | cons i is ih =>
      rw [List.foldl_cons, ih]
      rfl
  unfold State.appendRecord
  dsimp only
  rw [discards]
  split <;> rfl

/-- What a completion delivers, before the close is emptied (R123 steps 1 to 5). -/
def State.delivered (s : State) (g : Fin 4) (c : ClosingSet) : State :=
  (((s.appendRecord (c.record g)).addTotals (c.record g)).raiseRato
    (if c.furnaceOut then some g else none) c.linesOut).raisePcls g

theorem State.deliver_eq (s : State) (g : Fin 4) (c : ClosingSet) :
    s.deliver g c = (s.delivered g c).setGroup g { (s.delivered g c).group g with closing := none } := rfl

theorem State.raiseRato_frame (s : State) (f : Option (Fin 4)) (ls : List (Fin 8)) :
    s.raiseRato f ls = { s with attention := (s.raiseRato f ls).attention } := by
  unfold State.raiseRato
  split <;> rfl

theorem State.steady_addTotals (s : State) (r : GroupRecord) : s.Steady (s.addTotals r) := {}

theorem State.steady_raisePcls (s : State) (g : Fin 4) : s.Steady (s.raisePcls g) := {}

theorem State.steady_delivered (s : State) (g : Fin 4) (c : ClosingSet) : s.Steady (s.delivered g c) :=
  (((s.steady_appendRecord _).trans (State.steady_addTotals _ _)).trans (State.steady_raiseRato _ _ _)).trans
    (State.steady_raisePcls _ g)

theorem State.group_delivered (s : State) (g i : Fin 4) (c : ClosingSet) : (s.delivered g c).group i = s.group i := by
  have groups : (s.delivered g c).groups = s.groups := by
    unfold State.delivered State.raisePcls
    rw [State.raiseRato_frame, State.appendRecord_frame]
    rfl
  rw [State.group, groups]
  rfl

@[simp] theorem State.setGroup_setGroup (s : State) (g : Fin 4) (x y : GroupClose) :
    (s.setGroup g x).setGroup g y = s.setGroup g y := by
  simp [State.setGroup, vset]

theorem State.steady_complete (s : State) (g : Fin 4) : s.Steady (s.complete g) := by
  unfold State.complete
  split
  · exact .refl s
  · next c0 hc =>
    have busy : s.ZeroOutsideAccounting → ¬(s.run = .idle ∨ s.run = .pass) := fun zero r => by
      cases hc.symm.trans ((zero r).2.2 g)
    obtain ⟨p, hp, -⟩ := State.group_touchAll (s.loadedItems ++ s.configItems g) s g
    dsimp only
    generalize again : (s.group g).deferred = flag
    have first : s.Steady (if flag = true then s.touchAll (s.loadedItems ++ s.configItems g) else s) :=
      .ite (fun _ => s.steady_touchAll _) fun _ => .refl s
    have stays : ((if flag = true then s.touchAll (s.loadedItems ++ s.configItems g) else s).group g).deferred = flag := by
      split
      · rw [hp]
        exact again
      · exact again
    generalize (if flag = true then s.touchAll (s.loadedItems ++ s.configItems g) else s) = s1 at first stays ⊢
    have read := first.trans (s1.steady_touchAll (c0.items g))
    obtain ⟨o, ho, -⟩ := State.group_touchAll (c0.items g) s1 g
    have flagged : ((s1.touchAll (c0.items g)).group g).deferred = flag := by
      rw [ho]
      exact stays
    generalize s1.touchAll (c0.items g) = s2 at read flagged ⊢
    split
    · exact read
    · next c hc2 =>
      have emptied (x : GroupClose) (none : x.closing = none) (flag : x.deferred = false) :
          s.Steady ((s2.delivered g c).setGroup g x) :=
        (read.trans (s2.steady_delivered g c)).trans (State.steady_setGroup _ (fun c hc => by cases none.symm.trans hc)
          fun _ _ => flag)
      rw [State.deliver_eq]
      refine .ite (fun again => ?_) fun done => ?_
      · rw [State.setGroup_setGroup]
        exact ((emptied _ (by rw [State.group_setGroup_same]) rfl).trans (State.steady_touchAll _ _)).swapFill g .deferred
          busy
      · refine emptied _ rfl ?_
        rw [State.group_delivered]
        exact flagged.trans (eq_false_of_ne_true done)

end Sys2Proof.Machine
end

section
/-! PROOFS. The station commands keep what every row but a reset keeps. -/

namespace Sys2Proof.Machine

set_option Elab.async false

variable {s : State}

/-! ### The attention unit (11) -/

theorem Source.code_injective {x y : Source} (h : x.code = y.code) : x = y := by
  cases x <;> cases y <;> first | rfl | cases h

theorem Attention.isInService_setInService (a : Attention) (x y : Source) (b : Bool) :
    (a.setInService x b).isInService y = if x = y then b else a.isInService y := by
  unfold Attention.isInService Attention.setInService
  rw [vget_vset]
  by_cases h : x = y
  · simp [h]
  · have codes : x.code ≠ y.code := fun e => h (Source.code_injective e)
    simp [h, codes]

/-- R180: a source outranks those in service other than itself. -/
theorem Attention.prio_lt_of_outranks {a : Attention} {x y : Source} (h : a.outranks x = true) (ne : y ≠ x)
    (serves : a.isInService y = true) : a.prio x < a.prio y := by
  have := List.all_eq_true.mp h y y.mem_all
  simpa [ne, serves] using this

/-- R180: the highest source is eligible. -/
theorem Attention.eligible_of_highest {a : Attention} {x : Source} (h : a.highest = some x) : a.eligible x = true :=
  Source.mem_filter_all.mp (a.mostUrgent_spec h).1

theorem Attention.outranks_of_highest {a : Attention} {x : Source} (h : a.highest = some x) : a.outranks x = true := by
  have := Attention.eligible_of_highest h
  unfold Attention.eligible at this
  simp only [Bool.and_eq_true] at this
  exact this.1.2

theorem State.keeps_takeLdat (s : State) (args : List Byte) : s.Keeps (takeLdat args s).2 := by
  unfold takeLdat
  split
  · split
    · next x m n _ _ _ =>
      split
      · split
        · exact .refl s
        · next idle =>
          exact {
            priorities := fun h y z hy hz ne => by
              have other (y : Source) (hy : s.attention.isInService y = true) (p : Nat) :
                  vget (vset s.attention.priority x.code p) y.code = s.attention.prio y := by
                refine vget_vset_other _ (fun e => idle ?_) _
                rw [Source.code_injective e]
                exact hy
              exact (other y hy _).trans_ne ((h y z hy hz ne).trans_eq (other z hz _).symm) }
      · exact .refl s
    · exact .refl s
  · exact .refl s

theorem State.keeps_takeAtds (s : State) (args : List Byte) : s.Keeps (takeAtds args s).2 := by
  unfold takeAtds
  split
  · split
    · exact {}
    · exact .refl s
  · exact .refl s

theorem State.keeps_takePeek (s : State) (args : List Byte) : s.Keeps (takePeek args s).2 := by
  unfold takePeek
  split
  · split <;> exact .refl s
  · exact .refl s

/-- R185: acknowledging leaves the priorities, and adds the source alone to those in service. -/
theorem Attention.acknowledge_frame (a : Attention) (x : Source) :
    (a.acknowledge x).priority = a.priority ∧ (a.acknowledge x).inService = (a.setInService x true).inService := by
  cases x <;> exact ⟨rfl, rfl⟩

theorem State.keeps_takeAckn (s : State) (args : List Byte) : s.Keeps (takeAckn args s).2 := by
  unfold takeAckn
  split
  · split
    · exact .refl s
    · next x hx =>
      obtain ⟨priority, serving⟩ := s.attention.acknowledge_frame x
      have serves (y : Source) : (s.attention.acknowledge x).isInService y = if x = y then true else s.attention.isInService y :=
        (congrArg (fun v => vget v y.code) serving).trans (s.attention.isInService_setInService x y true)
      have prio (y : Source) : (s.attention.acknowledge x).prio y = s.attention.prio y := congrArg (fun v => vget v y.code) priority
      have above {y : Source} (ne : y ≠ x) (h : s.attention.isInService y = true) : s.attention.prio x < s.attention.prio y :=
        Attention.prio_lt_of_outranks (Attention.outranks_of_highest hx) ne h
      exact {
        priorities := fun h y z hy hz ne => by
          replace hy := (serves y).symm.trans hy
          replace hz := (serves z).symm.trans hz
          refine (prio y).trans_ne (Ne.trans_eq ?_ (prio z).symm)
          by_cases hxy : x = y
          · subst hxy
            rw [if_neg ne] at hz
            exact (above (Ne.symm ne) hz).ne
          · rw [if_neg hxy] at hy
            by_cases hxz : x = z
            · subst hxz
              exact (above ne hy).ne'
            · rw [if_neg hxz] at hz
              exact h y z hy hz ne }
  · exact .refl s

/-- R186: a source taken from service leaves the others' priorities distinct. -/
theorem State.keeps_endService (s : State) (x : Source) : s.Keeps { s with attention := s.attention.setInService x false } where
  priorities h y z hy hz ne := by
    have still {y : Source} (hy : (s.attention.setInService x false).isInService y = true) : s.attention.isInService y = true := by
      rw [Attention.isInService_setInService] at hy
      split at hy
      · cases hy
      · exact hy
    exact h y z (still hy) (still hz) ne

theorem State.keeps_takeEoas (s : State) (args : List Byte) : s.Keeps (takeEoas args s).2 := by
  unfold takeEoas
  split
  · split
    · exact s.keeps_endService _
    · exact .refl s
  · exact .refl s

theorem State.keeps_takeEoan (s : State) (args : List Byte) : s.Keeps (takeEoan args s).2 := by
  unfold takeEoan
  split
  · split
    · exact .refl s
    · exact s.keeps_endService _
  · exact .refl s

/-! ### The check unit (08) -/

theorem State.keeps_takeRdfl (s : State) (args : List Byte) : s.Keeps (takeRdfl args s).2 := by
  unfold takeRdfl
  split <;> exact .refl s

theorem State.keeps_takeClfl (s : State) (args : List Byte) : s.Keeps (takeClfl args s).2 := by
  unfold takeClfl
  split
  · exact {}
  · exact .refl s

theorem State.keeps_takeInjf (s : State) (args : List Byte) : s.Keeps (takeInjf args s).2 := by
  unfold takeInjf
  split
  · split
    · split
      · exact {}
      · exact .refl s
    · exact .refl s
  · exact .refl s

/-! ### The account store (01) -/

theorem State.keeps_furnaceState (s : State) (f : Fin 4) (was is : Bool) : s.Keeps (s.furnaceState f was is) := by
  have idle_not_closes (h : s.run = .idle ∨ s.run = .pass) : s.closes = false := by
    simp only [State.closes, decide_eq_false_iff_not]
    rcases h with h | h <;> simp [h]
  unfold State.furnaceState
  split
  · have live : s.Steady (s.setFLive f { base := { start := if s.closes then s.stamp else {} } }) :=
      s.steady_setFLive (fun h => by rw [idle_not_closes h]; rfl) fun _ => .fresh
    have group (t : State) : t.Steady (t.setGroup f { t.group f with closing := none, deferred := false }) :=
      t.steady_setGroup (fun _ h => nomatch h) fun _ _ => rfl
    have rewrite (t : State) : t.Keeps (t.rewritten (.live (.furnace f))) := {}
    have written := (live.trans (group _)).toKeeps.trans (rewrite _)
    exact .ite (fun _ => written) fun _ => written.trans {}
  · split
    · have live : s.Steady (s.setFLive f {}) := s.steady_setFLive (fun _ => rfl) fun _ => .fresh
      have group (t : State) : t.Steady (t.setGroup f { t.group f with deferred := false }) :=
        t.steady_setGroup (fun c h => ⟨c, h, rfl⟩) fun _ _ => rfl
      exact (live.trans (group _)).toKeeps.trans {}
    · exact .refl s

theorem State.keeps_loadFurnace (s : State) (f : Fin 4) (c : FurnaceConfig) : s.Keeps (s.loadFurnace f c) := by
  have written : s.Keeps ((s.setFurnaceCfg f c).rewritten (.config (.furnace f))) := {}
  exact (written.trans (State.keeps_furnaceState _ _ _ _)).trans (State.steady_computeBoundary _ _).toKeeps

theorem State.keeps_takeLdfn (s : State) (args : List Byte) : s.Keeps (takeLdfn args s).2 := by
  unfold takeLdfn
  split
  · split
    · next f c _ _ =>
      have read := (s.steady_touch (.config (.furnace f))).toKeeps
      dsimp only
      split
      · exact read
      · exact read.trans (State.keeps_loadFurnace _ f c)
    · exact .refl s
  · exact .refl s

theorem State.keeps_takeRdfn (s : State) (args : List Byte) : s.Keeps (takeRdfn args s).2 := by
  unfold takeRdfn
  split
  · split
    · exact (s.steady_touch _).toKeeps
    · exact .refl s
  · exact .refl s

theorem State.keeps_loadLine (s : State) (l : Fin 8) (c : LineConfig) : s.Keeps (s.loadLine l c) := by
  have written : s.Keeps ((s.setLineCfg l c).rewritten (.config (.line l))) := {}
  exact written.trans (.ite (fun _ => {}) fun _ => .ite (fun _ => {}) fun _ =>
    .ite (fun _ => (State.steady_retime _ l).toKeeps) fun _ => .refl _)

theorem State.keeps_takeLdln (s : State) (args : List Byte) : s.Keeps (takeLdln args s).2 := by
  unfold takeLdln
  split
  · split
    · next l c _ _ =>
      have read := (s.steady_touch (.config (.line l))).toKeeps
      dsimp only
      split
      · exact .refl s
      · split
        · exact read
        · exact read.trans (State.keeps_loadLine _ l c)
    · exact .refl s
  · exact .refl s

theorem State.keeps_takeRdln (s : State) (args : List Byte) : s.Keeps (takeRdln args s).2 := by
  unfold takeRdln
  split
  · split
    · exact (s.steady_touch _).toKeeps
    · exact .refl s
  · exact .refl s

theorem State.steady_countJob (s : State) (l : Fin 8) : s.Steady (s.countJob l) := by
  refine .ite (fun running => ?_) fun _ => .refl s
  have read := s.steady_touch (.live (.line l))
  exact read.trans (State.steady_setLLive_of_run _ (read.run.trans running) id)

theorem State.keeps_takeJobl (s : State) (args : List Byte) : s.Keeps (takeJobl args s).2 := by
  unfold takeJobl
  split
  · split
    · next l _ =>
      have read := (s.steady_touch (.config (.line l))).toKeeps
      dsimp only
      split
      · split
        · exact read
        · split
          · exact read
          · exact (read.trans {}).trans (State.steady_countJob _ l).toKeeps
      · exact .refl s
    · exact .refl s
  · exact .refl s

/-! ### The run states (01) -/

/-- A run state in which the live sets may hold figures, entered with live sets within their bounds. -/
theorem LiveBase.WithinCaps.entered {b : LiveBase} (h : b.WithinCaps) (held : HeldSet) (start : Option Stamp) :
    (b.entered held start).WithinCaps := by
  unfold LiveBase.entered
  exact ⟨h.1, h.2⟩

theorem State.keeps_enterRun (s : State) : s.Keeps s.enterRun := by
  have read := (s.steady_touchAll s.loadedItems).toKeeps
  unfold State.enterRun
  generalize s.touchAll s.loadedItems = u at read ⊢
  refine read.trans {
    zero := fun _ h => by rcases h with h | h <;> cases h
    live := fun h => ⟨fun f => ?_, fun l => ?_⟩ }
  · simp only [State.fLive, vget_vgen]
    split
    · exact ⟨LiveBase.WithinCaps.entered (h.1 f).1 _ _, (h.1 f).2⟩
    · exact h.1 f
  · simp only [State.lLive, vget_vgen]
    split
    · exact ⟨LiveBase.WithinCaps.entered (h.2 l).1 _ _, (h.2 l).2⟩
    · exact h.2 l

theorem State.keeps_takeRuna (s : State) (args : List Byte) : s.Keeps (takeRuna args s).2 := by
  unfold takeRuna
  split
  · split
    · exact .refl s
    · exact .refl s
    · split
      · exact s.keeps_enterRun
      · exact .refl s
  · exact .refl s

theorem State.keeps_takeHlta (s : State) (args : List Byte) : s.Keeps (takeHlta args s).2 := by
  unfold takeHlta
  split
  · split
    · exact { zero := fun _ h => by rcases h with h | h <;> cases h }
    · exact .refl s
  · exact .refl s

theorem Stream.cleared_entry (st : Stream) : st.cleared.entry = st.entry := by
  unfold Stream.cleared
  split <;> rfl

theorem State.keeps_clearAccounting (s : State) (r : RunState) : s.Keeps (s.clearAccounting r) := by
  unfold State.clearAccounting
  refine State.Keeps.trans ?_ (State.steady_startTracking _).toKeeps
  exact {
    records := fun _ => ⟨Nat.zero_le 32, Nat.zero_le 65535, .nil⟩
    zero := fun _ _ => ⟨fun _ => vget_replicate _ _, fun _ => vget_replicate _ _, fun _ => congrArg _ (vget_replicate _ _)⟩
    deferred := fun _ g _ => congrArg GroupClose.deferred (vget_replicate _ g)
    priorities := fun _ x _ hx => by cases x <;> cases hx
    pairs := fun h j k a b ha hb source channel => by
      simp only [State.stream, vget_map, Option.map_eq_some_iff] at ha hb
      obtain ⟨a, ha, rfl⟩ := ha
      obtain ⟨b, hb, rfl⟩ := hb
      rw [Stream.cleared_entry, Stream.cleared_entry] at source channel
      exact h j k a b ha hb source channel
    live := fun _ => ⟨fun f => by rw [State.fLive, vget_replicate]; exact .fresh,
      fun l => by rw [State.lLive, vget_replicate]; exact .fresh⟩ }

theorem State.keeps_takeClra (s : State) (args : List Byte) : s.Keeps (takeClra args s).2 := by
  unfold takeClra
  split
  · split
    · exact .refl s
    · dsimp only [answer]
      exact s.keeps_clearAccounting _
    · dsimp only [answer]
      exact s.keeps_clearAccounting _
  · exact .refl s

theorem State.keeps_takeIsol (s : State) (args : List Byte) : s.Keeps (takeIsol args s).2 := by
  unfold takeIsol
  split
  · split
    · dsimp only [answer]
      exact s.keeps_clearAccounting _
    · split
      · next pass =>
        have idle : s.Keeps { s with run := .idle } := { zero := fun h _ => h (.inr pass) }
        dsimp only [answer]
        exact idle.trans (State.steady_startTracking _).toKeeps
      · exact .refl s
    · exact .refl s
  · exact .refl s

/-! ### The stream table (02) -/

/-- R22: where no other entry holds its pair, an entry may be loaded. -/
theorem State.keeps_loadStream (s : State) {k : Fin 48} {e : StreamEntry}
    (free : ∀ j st, s.stream j = some st → j ≠ k → ¬(st.entry.source = e.source ∧ st.entry.channel = e.channel)) :
    s.Keeps (s.setStream k (some { entry := e })) where
  pairs h i j a b ha hb source channel := by
    rw [State.stream_setStream] at ha hb
    by_cases ki : k = i
    · by_cases kj : k = j
      · exact ki ▸ kj
      · rw [if_pos ki] at ha
        rw [if_neg kj] at hb
        cases ha
        exact absurd ⟨source.symm, channel.symm⟩ (free j b hb (Ne.symm kj))
    · rw [if_neg ki] at ha
      by_cases kj : k = j
      · rw [if_pos kj] at hb
        cases hb
        exact absurd ⟨source, channel⟩ (free i a ha (Ne.symm ki))
      · rw [if_neg kj] at hb
        exact h i j a b ha hb source channel

/-- R22: no other entry holds the pair. -/
theorem State.pairTaken_eq_false {k : Fin 48} {src : Byte} {ch : Nat} (h : s.pairTaken k src ch = false) (j : Fin 48)
    (st : Stream) (hj : s.stream j = some st) (ne : j ≠ k) : ¬(st.entry.source = src ∧ st.entry.channel = ch) := by
  have := List.any_eq_false.mp h j (List.mem_finRange j)
  rw [hj] at this
  simpa [ne] using this

theorem State.pairFree_of_entryOk {k : Fin 48} {e : StreamEntry} (h : s.entryOk k e = true) :
    s.pairTaken k e.source e.channel = false := by
  unfold State.entryOk at h
  simp only [Bool.and_eq_true, Bool.not_eq_true'] at h
  exact h.2

/-- R147: a read leaves a stream as it is, or empties it. -/
theorem State.stream_of_touch {it : Item} {k : Fin 48} {st : Stream} (h : (s.touch it).stream k = some st) :
    s.stream k = some st := by
  by_cases e : it = .stream k
  · subst e
    unfold State.touch at h
    dsimp only at h
    split at h
    · exact h
    · split at h
      · unfold State.disarmed at h
        split at h
        · exact h
        · split at h <;> exact h
      · simp [State.ownerFault, State.stream, State.raiseStream, State.setStream] at h
  · rwa [s.stream_touch e] at h

theorem State.keeps_takeLdst (s : State) (args : List Byte) : s.Keeps (takeLdst args s).2 := by
  unfold takeLdst
  split
  · split
    · next k e _ _ =>
      split
      · next ok =>
        have read := ((s.steady_touch (.stream k)).trans ((s.touch (.stream k)).steady_touch (.config e.target))).toKeeps
        have free := State.pairTaken_eq_false (State.pairFree_of_entryOk ok)
        dsimp only
        split
        · exact read
        · have written (t : State) : t.Keeps ((t.rewritten (.stream k)).unhear e.source e.channel) := {}
          refine (read.trans (State.keeps_loadStream _ fun j st hj => ?_)).trans (written _)
          exact free j st (State.stream_of_touch (State.stream_of_touch hj))
      · exact .refl s
    · exact .refl s
  · exact .refl s

theorem State.keeps_takeRdst (s : State) (args : List Byte) : s.Keeps (takeRdst args s).2 := by
  unfold takeRdst
  split
  · split
    · split
      · exact .refl s
      · exact (s.steady_touch _).toKeeps
    · exact .refl s
  · exact .refl s

theorem State.keeps_takeSten (s : State) (args : List Byte) : s.Keeps (takeSten args s).2 := by
  unfold takeSten
  split
  · split
    · next k on _ _ =>
      have read := (s.steady_touchLoaded k).toKeeps
      dsimp only
      generalize s.touchLoaded k = u at read ⊢
      split
      · split <;> exact read
      · next st hst =>
        have write (v : StreamLive) := read.trans (u.steady_setStreamLive hst v).toKeeps
        split
        · split
          · split
            · have forget (t : State) (src : Byte) (ch : Nat) : t.Keeps (t.unhear src ch) := {}
              exact (write _).trans (forget _ _ _)
            · exact read
          · exact read
        · split
          · exact read
          · exact write _
    · exact .refl s
  · exact .refl s

theorem State.keeps_takeLstn (s : State) (args : List Byte) : s.Keeps (takeLstn args s).2 := by
  unfold takeLstn
  split <;> exact .refl s

/-! ### The close engine and the plant clock (05, 06) -/

theorem State.keeps_takeClos (s : State) (args : List Byte) : s.Keeps (takeClos args s).2 := by
  unfold takeClos
  split
  · split
    · split
      · exact .refl s
      · split
        · exact .refl s
        · next closes =>
          split
          · exact .refl s
          · exact (State.steady_swap (by simpa using closes) _ _).toKeeps
    · exact .refl s
  · exact .refl s

theorem State.keeps_takeSett (s : State) (args : List Byte) : s.Keeps (takeSett args s).2 := by
  unfold takeSett
  split
  · split
    · dsimp only [answer]
      exact s.keeps_jump _ _
    · exact .refl s
  · exact .refl s

theorem State.keeps_takeAdjt (s : State) (args : List Byte) : s.Keeps (takeAdjt args s).2 := by
  unfold takeAdjt
  split
  · dsimp only
    split
    · exact .refl s
    · split
      · exact .refl s
      · split
        · exact .refl s
        · dsimp only [answer]
          exact s.keeps_jump _ _
  · exact .refl s

theorem State.keeps_takeRdtm (s : State) (args : List Byte) : s.Keeps (takeRdtm args s).2 := by
  unfold takeRdtm
  split <;> exact .refl s

/-! ### Records (07) -/

theorem State.keeps_takeLook (s : State) (args : List Byte) : s.Keeps (takeLook args s).2 := by
  unfold takeLook
  split
  · split
    · exact .refl s
    · split
      · exact .refl s
      · split
        · exact .refl s
        · exact (s.steady_touch (.queue 0)).toKeeps
  · exact .refl s

theorem State.keeps_takeTake (s : State) (args : List Byte) : s.Keeps (takeTake args s).2 := by
  unfold takeTake
  split
  · split
    · exact .refl s
    · split
      · exact .refl s
      · split
        · exact .refl s
        · split
          · exact .refl s
          · have read := (s.steady_touch (.queue 0)).toKeeps
            exact .ite (fun _ => read.trans (State.steady_removeRecord _ 0).toKeeps) fun _ => read
  · exact .refl s

theorem State.keeps_takeRdtt (s : State) (args : List Byte) : s.Keeps (takeRdtt args s).2 := by
  unfold takeRdtt
  split
  · split <;> exact .refl s
  · exact .refl s

theorem State.keeps_takeSnap (s : State) (args : List Byte) : s.Keeps (takeSnap args s).2 := by
  unfold takeSnap
  split
  · split
    · split
      · have copied (t : State) (x : Option Snapshot) : t.Keeps { t with snapshot := x } := {}
        dsimp only [answer]
        exact (s.steady_touchAll _).toKeeps.trans (copied _ _)
      · exact .refl s
    · exact .refl s
  · exact .refl s

theorem State.keeps_takeRdsn (s : State) (args : List Byte) : s.Keeps (takeRdsn args s).2 := by
  unfold takeRdsn
  split
  · split
    · exact .refl s
    · split
      · exact .refl s
      · split <;> exact .refl s
  · exact .refl s

theorem State.keeps_takeStat (s : State) (args : List Byte) : s.Keeps (takeStat args s).2 := by
  unfold takeStat
  split <;> exact .refl s

end Sys2Proof.Machine
end

section
/-! PROOFS. The link ports, the command unit, the rows and the passage of time keep what every step keeps. -/

namespace Sys2Proof.Machine

set_option Elab.async false

/-! ### Writes of ports (R155 to R158) -/

/-- The port holds no frame of its own, and neither sends nor receives one (R158). -/
def Port.Silent (q : Port) : Prop := q.localQueue = [] ∧ q.buffer = [] ∧ q.tx = none ∧ q.rx = none

/-- The port has a rate exactly in UP (R155). -/
def Port.Rated (q : Port) : Prop := q.rate.isSome ↔ q.link = .up

section
variable (s : State)

theorem State.portEmpty_iff (p : Side) : s.PortEmpty p ↔
    (s.port p).Rated ∧ ((s.port p).link ≠ .up → (s.port p).Silent ∧ (s.port p.other).buffer = []) := by
  simp only [State.PortEmpty, Port.Rated, Port.Silent]
  tauto

theorem State.portsEmpty_iff (p : Side) : s.PortsEmptyUnlessUp ↔ s.PortEmpty p ∧ s.PortEmpty p.other := by
  cases p
  · exact Iff.rfl
  · exact And.comm

/-- A port written keeps the invariants of the ports where, outside UP, it holds nothing and leaves nothing to feed. -/
theorem State.steady_setPort {p : Side} {x : Port} (slots : x.slots ≤ (s.port p).slots)
    (rate : (s.port p).Rated → x.Rated)
    (own : x.link ≠ .up → s.PortEmpty p → x.Silent ∧ (s.port p.other).buffer = [])
    (fed : (s.port p.other).link ≠ .up → (s.port p).buffer = [] → x.buffer = []) : s.Steady (s.setPort p x) := by
  have ports (h : s.PortsEmptyUnlessUp) : (s.setPort p x).PortsEmptyUnlessUp := by
    obtain ⟨here, there⟩ := (s.portsEmpty_iff p).mp h
    refine (State.portsEmpty_iff _ p).mpr ⟨?_, ?_⟩
    · rw [State.portEmpty_iff, State.port_setPort_same, State.port_setPort_other]
      exact ⟨rate ((s.portEmpty_iff p).mp here).1, fun down => own down here⟩
    · obtain ⟨rated, empty⟩ := (s.portEmpty_iff p.other).mp there
      rw [State.portEmpty_iff, State.port_setPort_other, Side.other_other, State.port_setPort_same]
      refine ⟨rated, fun down => ?_⟩
      obtain ⟨silent, buffer⟩ := empty down
      rw [Side.other_other] at buffer
      exact ⟨silent, fed down buffer⟩
  cases p with
  | field => exact { queues := fun ⟨⟨field, plant⟩, commands⟩ => ⟨⟨slots.trans field, plant⟩, commands⟩, ports := ports }
  | plant => exact { queues := fun ⟨⟨field, plant⟩, commands⟩ => ⟨⟨field, slots.trans plant⟩, commands⟩, ports := ports }

/-- A port written with its link state and rate. -/
theorem State.steady_setPort_of_link {p : Side} {x : Port} (link : x.link = (s.port p).link)
    (rate : x.rate = (s.port p).rate) (slots : x.slots ≤ (s.port p).slots)
    (own : (s.port p).link ≠ .up → (s.port p).Silent → x.Silent)
    (fed : (s.port p.other).link ≠ .up → (s.port p).buffer = [] → x.buffer = []) : s.Steady (s.setPort p x) := by
  refine s.steady_setPort slots (fun h => ?_) (fun down h => ?_) fed
  · unfold Port.Rated at h ⊢
    rwa [link, rate]
  · rw [link] at down
    obtain ⟨silent, buffer⟩ := ((s.portEmpty_iff p).mp h).2 down
    exact ⟨own down silent, buffer⟩

/-- `x` holds, sends and receives the same frames as `q`. -/
structure Port.SameFrames (q x : Port) : Prop where
  localQueue : x.localQueue = q.localQueue := by rfl
  reserved : x.reserved = q.reserved := by rfl
  buffer : x.buffer = q.buffer := by rfl
  tx : x.tx = q.tx := by rfl
  rx : x.rx = q.rx := by rfl

theorem Port.SameFrames.trans {q x y : Port} (h : q.SameFrames x) (k : x.SameFrames y) : q.SameFrames y :=
  ⟨k.localQueue.trans h.localQueue, k.reserved.trans h.reserved, k.buffer.trans h.buffer, k.tx.trans h.tx, k.rx.trans h.rx⟩

theorem Port.SameFrames.silent {q x : Port} (h : q.SameFrames x) (silent : q.Silent) : x.Silent := by
  obtain ⟨queue, buffer, tx, rx⟩ := silent
  exact ⟨h.localQueue.trans queue, h.buffer.trans buffer, h.tx.trans tx, h.rx.trans rx⟩

/-- A port written with the frames it has, which does not leave UP. -/
theorem State.steady_setPort_of_sameFrames {p : Side} {x : Port} (frames : (s.port p).SameFrames x)
    (up : (s.port p).link = .up → x.link = .up) (rate : (s.port p).Rated → x.Rated) : s.Steady (s.setPort p x) := by
  refine s.steady_setPort (le_of_eq ?_) rate (fun down h => ?_) fun _ buffer => frames.buffer.trans buffer
  · rw [Port.slots, Port.slots, frames.localQueue, frames.reserved]
  · obtain ⟨silent, buffer⟩ := ((s.portEmpty_iff p).mp h).2 fun h => down (up h)
    exact ⟨frames.silent silent, buffer⟩

end

/-! ### Bringing a link up and losing it (R156 to R158) -/

theorem Port.rated_enterUp (q : Port) (r : Rate) : (q.enterUp r).Rated := by simp [Port.Rated, Port.enterUp]

/-- R157: a burst judged leaves the frames, and takes the port UP at a rate or leaves link and rate. -/
theorem Port.judgeBurst_cases (q : Port) (rates : RateSet) : q.SameFrames (q.judgeBurst rates) ∧
    ((∃ r, q.judgeBurst rates = q.enterUp r) ∨
      (q.judgeBurst rates).link = q.link ∧ (q.judgeBurst rates).rate = q.rate) := by
  unfold Port.judgeBurst
  split
  · exact ⟨{}, .inl ⟨_, rfl⟩⟩
  · split
    · exact ⟨{}, .inl ⟨_, rfl⟩⟩
    · split
      · exact ⟨{}, .inr ⟨rfl, rfl⟩⟩
      · exact ⟨{}, .inr ⟨rfl, rfl⟩⟩

theorem Port.rated_judgeBurst {q : Port} (h : q.Rated) (rates : RateSet) : (q.judgeBurst rates).Rated := by
  obtain ⟨r, e⟩ | ⟨link, rate⟩ := (q.judgeBurst_cases rates).2
  · rw [e]
    exact q.rated_enterUp r
  · unfold Port.Rated at h ⊢
    rwa [link, rate]

/-- A port that is not UP has the same frames and is rated after it has judged a burst. -/
theorem State.steady_judgeBurst (s : State) {p : Side} (h : (s.port p).link ≠ .up) (rates : RateSet) :
    s.Steady (s.setPort p ((s.port p).judgeBurst rates)) :=
  s.steady_setPort_of_sameFrames ((s.port p).judgeBurst_cases rates).1 (fun up => absurd up h) fun rated =>
    Port.rated_judgeBurst rated rates

variable (s : State) (p : Side)

theorem State.steady_sendBurst : s.Steady (s.setPort p ((s.port p).sendBurst s.now)) := by
  unfold Port.sendBurst
  split
  · exact s.steady_setPort_of_sameFrames {} id id
  · exact s.steady_setPort_of_sameFrames {} id id

theorem State.steady_firstSignal (x : LinkSignal) : s.Steady (s.setPort p ((s.port p).firstSignal x)) := by
  unfold Port.firstSignal
  split
  · next down =>
    have offered (h : (s.port p).Rated) : ({ s.port p with link := .offer, rateFault := false } : Port).Rated := by
      simp only [Port.Rated, down, reduceCtorEq, iff_false] at h ⊢
      exact h
    have leaves {l : LinkState} (up : (s.port p).link = .up) : l = .up := by
      rw [down] at up
      cases up
    dsimp only
    split
    · exact s.steady_setPort_of_sameFrames (Port.SameFrames.trans {} (Port.judgeBurst_cases _ _).1) leaves
        fun h => Port.rated_judgeBurst (offered h) _
    · exact s.steady_setPort_of_sameFrames {} leaves offered
  · exact s.steady_setPort_of_sameFrames {} id id

theorem State.steady_burstReceived (rates : RateSet) : s.Steady (s.setPort p ((s.port p).burstReceived rates)) := by
  unfold Port.burstReceived
  split
  · next offer => exact s.steady_judgeBurst (by simp [offer]) rates
  · exact s.steady_setPort_of_sameFrames {} id id

theorem State.steady_idleDetected (x : IdleSeen) : s.Steady (s.setPort p ((s.port p).idleDetected x)) := by
  unfold Port.idleDetected
  split
  · split
    · split
      · exact s.steady_setPort_of_sameFrames {} (fun _ => rfl) fun _ => Port.rated_enterUp _ _
      · exact s.steady_setPort_of_sameFrames {} id id
    · exact s.steady_setPort_of_sameFrames {} id id
  · exact s.steady_setPort_of_sameFrames {} id id

/-- R158: a lost link empties both buffers and the port that leaves. -/
theorem State.steady_dropLink {l : LinkState} (h : l ≠ .up) : s.Steady (s.dropLink p l) := by
  unfold State.dropLink
  dsimp only
  generalize decide ((s.port p.other).tx = some .forwarded) = cut
  refine State.Steady.trans (t := s.setPort p.other ((s.port p.other).partnerDropped cut)) ?_ ?_
  · exact s.steady_setPort_of_link rfl rfl le_rfl
      (fun _ ⟨queue, _, tx, rx⟩ => ⟨queue, rfl, by simp [Port.partnerDropped, tx], by simp [Port.partnerDropped, rx]⟩)
      fun _ _ => rfl
  · refine State.steady_setPort _ (Nat.zero_le _) (fun _ => ?_) (fun _ _ => ⟨⟨rfl, rfl, rfl, rfl⟩, ?_⟩) fun _ _ => rfl
    · simpa [Port.Rated, Port.dropped] using h
    · rw [State.port_setPort_same]
      rfl

theorem State.steady_signalLoss : s.Steady (s.signalLoss p) := by
  unfold State.signalLoss
  split
  · exact .refl s
  · exact s.steady_dropLink p (by decide)

theorem State.link_dropLink (l : LinkState) : ((s.dropLink p l).port p).link = l := by
  unfold State.dropLink
  rw [State.port_setPort_same]

theorem State.steady_partnerRestarts (rates : RateSet) : s.Steady (s.partnerRestarts p rates) := by
  unfold State.partnerRestarts
  split
  · exact (s.steady_dropLink p (by decide)).trans
      (State.steady_judgeBurst _ (by rw [State.link_dropLink]; decide) rates)
  · exact .refl s

theorem State.steady_configureLink (rates : RateSet) (t : Threshold) : s.Steady (s.configureLink p rates t) := by
  have loaded : s.Steady (s.setPort p { s.port p with
      accepted := rates, threshold := t, past := (s.port p).threshold :: (s.port p).past }) :=
    s.steady_setPort_of_sameFrames {} id id
  unfold State.configureLink
  dsimp only
  split
  · split
    · exact loaded
    · exact loaded.trans (State.steady_dropLink _ p (by decide))
  · exact loaded

/-! ### Storing and forwarding (R161, R162) -/

variable {p} in
/-- R162: an overrun ends a frame in reception, so the port is UP. -/
theorem State.steady_overrun (h : (s.port p).rx = some true) : s.Steady (s.overrun p) := by
  unfold State.overrun
  dsimp only
  generalize (s.sending p && _ && _) = cut
  generalize hu : (if cut = true then s.setPort p.other _ else s) = u
  have cut : s.Steady u := by
    rw [← hu]
    exact .ite (fun _ => s.steady_setPort_of_link rfl rfl le_rfl
      (fun _ ⟨queue, buffer, _, rx⟩ => ⟨queue, buffer, rfl, rx⟩) fun _ buffer => buffer) fun _ => .refl s
  have same : u.port p = s.port p := by
    rw [← hu]
    split
    · exact s.port_other_setPort p _
    · rfl
  refine cut.trans ?_
  rw [← same] at h ⊢
  refine u.steady_setPort_of_link rfl rfl le_rfl (fun _ ⟨_, _, _, rx⟩ => ?_) fun _ buffer => ?_
  · cases rx.symm.trans h
  · simp [buffer]

theorem State.steady_noteReception (arrived : Arrival) : s.Steady (s.noteReception p arrived) := by
  unfold State.noteReception
  dsimp only
  split
  · exact .refl s
  · next up =>
    have up : (s.port p).link = .up := not_not.mp up
    split
    · split
      · next stores =>
        refine s.steady_setPort_of_link rfl rfl le_rfl (fun down => absurd up down) fun down => absurd ?_ down
        have linked := stores.1
        simp only [State.linkedSince, Bool.and_eq_true, decide_eq_true_eq] at linked
        exact linked.1
      · exact s.steady_setPort_of_link rfl rfl le_rfl (fun down => absurd up down) fun _ buffer => buffer
    · refine s.steady_setPort_of_link rfl rfl le_rfl (fun down => absurd up down) fun _ buffer => ?_
      simp [buffer]
    · exact .refl s

theorem State.steady_testRoom : s.Steady (s.testRoom p) := by
  unfold State.testRoom
  split
  · exact .refl s
  · next stored =>
    have stored : (s.port p).rx = some true := not_not.mp (not_or.mp stored).1
    have drawn : s.Steady s.drawn := {}
    exact .ite (fun _ => .ite (fun _ => drawn) fun _ => drawn.trans (State.steady_overrun _ (by cases p <;> exact stored)))
      fun _ => s.steady_overrun stored

/-- The end of a reception. -/
theorem State.steady_endReception : s.Steady (s.setPort p { s.port p with rx := none }) :=
  s.steady_setPort_of_link rfl rfl le_rfl (fun _ ⟨queue, buffer, tx, _⟩ => ⟨queue, buffer, tx, rfl⟩) fun _ buffer => buffer

theorem State.steady_endStored (bytes : List Byte) (good : Bool) : s.Steady (s.endStored p bytes good) := by
  unfold State.endStored
  dsimp only
  split
  · refine s.steady_setPort_of_link rfl rfl le_rfl (fun _ ⟨queue, buffer, tx, _⟩ => ⟨queue, ?_, tx, rfl⟩) fun _ buffer => ?_
    · simp [buffer]
    · simp [buffer]
  · refine State.Steady.trans (State.Steady.trans ?_ (State.steady_testRoom _ p)) (State.steady_endReception _ p)
    refine s.steady_setPort_of_link rfl rfl le_rfl (fun _ ⟨queue, buffer, tx, rx⟩ => ⟨queue, ?_, tx, rx⟩) fun _ buffer => ?_
    · simp [buffer]
    · simp [buffer]

variable {p} in
theorem State.steady_storeWhole (up : (s.port p).link = .up) (f : Frame) (begun : Begun) :
    s.Steady (s.storeWhole p f begun) := by
  unfold State.storeWhole
  dsimp only
  split
  · next stores =>
    refine State.Steady.trans (State.Steady.trans ?_ (State.steady_testRoom _ p)) (State.steady_endReception _ p)
    refine s.steady_setPort_of_link rfl rfl le_rfl (fun down => absurd up down) fun down => absurd ?_ down
    have linked := stores.1
    simp only [State.linkedSince, Bool.and_eq_true, decide_eq_true_eq] at linked
    exact linked.1
  · exact .refl s

variable {p} in
theorem State.steady_forward (up : (s.port p).link = .up) (f : Frame) (begun : Begun) :
    s.Steady (s.forward p f begun) := by
  unfold State.forward
  split
  · exact s.steady_endStored p _ _
  · exact s.steady_endReception p
  · exact s.steady_storeWhole up f begun

theorem State.steady_badEnd (bytes : List Byte) : s.Steady (s.badEnd p bytes) := by
  unfold State.badEnd
  dsimp only
  split
  · have counted : s.Steady (s.setPort p { s.port p with badCheck := bump (s.port p).badCheck }) :=
      s.steady_setPort_of_sameFrames {} id id
    split
    · exact counted.trans (State.steady_endStored _ p _ _)
    · exact counted.trans (State.steady_endReception _ p)
  · exact .refl s

/-! ### Transmission (R161 to R163) -/

theorem State.steady_transmit : s.Steady (s.transmit p) := by
  unfold State.transmit
  dsimp only
  split
  · next starts =>
    obtain ⟨up, -⟩ := starts
    split
    · exact s.steady_setPort_of_link rfl rfl le_rfl (fun down => absurd up down) fun _ buffer => buffer
    · split
      · exact .refl s
      · next f rest queue =>
        refine s.steady_setPort_of_link rfl rfl ?_ (fun down => absurd up down) fun _ buffer => buffer
        simp only [Port.slots, queue, List.length_cons]
        omega
    · exact s.steady_setPort_of_link rfl rfl le_rfl (fun down => absurd up down) fun _ buffer => buffer
  · exact .refl s

theorem State.steady_startIdle : s.Steady (s.startIdle p) := .ite (fun _ => s.steady_transmit p) fun _ => .refl s

theorem State.steady_transmitStart (arrived : Arrival) : s.Steady (s.transmitStart p arrived) :=
  ((s.steady_noteReception p.other arrived).trans (State.steady_testRoom _ _)).trans (State.steady_transmit _ p)

theorem State.steady_frameSent : s.Steady (s.frameSent p) := by
  have silent (x : LineOut) (t : State) : t.Steady (t.setPort p { t.port p with tx := none, line := x }) :=
    t.steady_setPort_of_link rfl rfl le_rfl (fun _ ⟨queue, buffer, _, rx⟩ => ⟨queue, buffer, rfl, rx⟩) fun _ buffer => buffer
  unfold State.frameSent
  dsimp only
  split
  · exact .refl s
  · exact silent _ s
  · split
    · exact .refl s
    · next e rest buffer =>
      split
      · refine (silent (.frame e.bytes) s).trans ?_
        generalize hu : s.setPort p _ = u
        have same : u.port p.other = s.port p.other := by
          rw [← hu]
          exact s.port_setPort_other p _
        rw [← same] at buffer ⊢
        refine u.steady_setPort_of_link rfl rfl le_rfl (fun _ ⟨_, empty, _, _⟩ => ?_) fun _ empty => ?_
        · cases empty.symm.trans buffer
        · cases empty.symm.trans buffer
      · exact .refl s

theorem State.steady_forwardOverrun (arrived : Arrival) : s.Steady (s.forwardOverrun p arrived) := by
  have noted := s.steady_noteReception p arrived
  unfold State.forwardOverrun
  dsimp only
  split
  · next stored => exact .ite (fun _ => noted.trans (State.steady_overrun _ stored)) fun _ => noted
  · exact noted

theorem State.steady_forwardUnderrun : s.Steady (s.forwardUnderrun p) := by
  unfold State.forwardUnderrun
  dsimp only
  split
  · exact .refl s
  · next e rest buffer =>
    split
    · refine State.Steady.trans (t := s.setPort p.other { s.port p.other with tx := none, line := .abort }) ?_ ?_
      · exact s.steady_setPort_of_link rfl rfl le_rfl (fun _ ⟨queue, buffer, _, rx⟩ => ⟨queue, buffer, rfl, rx⟩)
          fun _ buffer => buffer
      · generalize hu : s.setPort p.other _ = u
        have same : u.port p = s.port p := by
          rw [← hu]
          exact s.port_other_setPort p _
        rw [← same] at buffer ⊢
        refine u.steady_setPort_of_link rfl rfl le_rfl (fun _ ⟨_, empty, _, _⟩ => ?_) fun _ empty => ?_
        · cases empty.symm.trans buffer
        · cases empty.symm.trans buffer
    · exact .refl s

theorem State.keeps_takeLkcf (args : List Byte) : s.Keeps (takeLkcf args s).2 := by
  unfold takeLkcf
  split
  · split
    · split
      · exact (s.steady_configureLink _ _ _).toKeeps
      · exact .refl s
    · exact .refl s
  · exact .refl s

theorem State.keeps_takeLkst (args : List Byte) : s.Keeps (takeLkst args s).2 := by
  unfold takeLkst
  split
  · split
    · next p c _ _ =>
      have drawn : s.Steady (if s.sending p then s.drawn else s) := .ite (fun _ => {}) fun _ => .refl s
      have same : (if s.sending p then s.drawn else s).port p = s.port p := by
        split
        · cases p <;> rfl
        · rfl
      dsimp only [answer]
      rw [← same]
      have cleared (t : State) : t.Steady (t.setPort p { t.port p with forwarded := 0, aborted := 0, badCheck := 0 }) :=
        t.steady_setPort_of_sameFrames {} id id
      exact .ite (fun _ => (drawn.trans (cleared _)).toKeeps) fun _ => drawn.toKeeps
    · exact .refl s
  · exact .refl s

/-! ### The command unit (10) -/

/-- Every command of the Command Index keeps what every row but a reset keeps. -/
theorem keeps_of_mem_handlers : ∀ h ∈ handlers, ∀ (args : List Byte) (s : State), s.Keeps (h.2 args s).2 := by
  simp only [handlers, List.forall_mem_cons]
  exact ⟨fun a s => s.keeps_takeStat a, fun a s => s.keeps_takeRuna a, fun a s => s.keeps_takeHlta a,
    fun a s => s.keeps_takeClra a, fun a s => s.keeps_takeIsol a, fun a s => s.keeps_takeLdfn a,
    fun a s => s.keeps_takeRdfn a, fun a s => s.keeps_takeLdln a, fun a s => s.keeps_takeRdln a,
    fun a s => s.keeps_takeJobl a, fun a s => s.keeps_takeLdst a, fun a s => s.keeps_takeRdst a,
    fun a s => s.keeps_takeSten a, fun a s => s.keeps_takeLstn a, fun a s => s.keeps_takeClos a,
    fun a s => s.keeps_takeSnap a, fun a s => s.keeps_takeRdsn a, fun a s => s.keeps_takeTake a,
    fun a s => s.keeps_takeLook a, fun a s => s.keeps_takeRdtt a, fun a s => s.keeps_takeSett a,
    fun a s => s.keeps_takeAdjt a, fun a s => s.keeps_takeRdtm a, fun a s => s.keeps_takeLdat a,
    fun a s => s.keeps_takeAtds a, fun a s => s.keeps_takePeek a, fun a s => s.keeps_takeAckn a,
    fun a s => s.keeps_takeEoas a, fun a s => s.keeps_takeEoan a, fun a s => s.keeps_takeRdfl a,
    fun a s => s.keeps_takeClfl a, fun a s => s.keeps_takeInjf a, fun a s => s.keeps_takeLkcf a,
    fun a s => s.keeps_takeLkst a, fun _ h => absurd h List.not_mem_nil⟩

theorem State.keeps_runCommand (c : Command) : s.Keeps (runCommand c s).2 := by
  unfold runCommand
  split
  · next h found =>
    obtain ⟨before, after, split, -⟩ := List.lookup_eq_some_iff.mp found
    exact keeps_of_mem_handlers (c.code.toNat, h) (by simp [split]) c.args s
  · exact .refl s

theorem State.keeps_tryTake : s.Keeps s.tryTake := by
  unfold State.tryTake
  split
  · exact .refl s
  · next c rest waiting =>
    split
    · next may =>
      simp only [State.mayTake, Bool.and_eq_true] at may
      have reserved : s.Keeps (State.reserveSlot { s with commands := rest }) := {
        queues := fun ⟨⟨field, _⟩, commands⟩ => by
          have shorter : rest.length + 1 ≤ 4 := by rwa [waiting] at commands
          have room : s.plant.localQueue.length + s.plant.reserved < 6 := of_decide_eq_true may.2
          refine ⟨⟨field, ?_⟩, ?_⟩
          · show s.plant.localQueue.length + (s.plant.reserved + 1) ≤ 6
            omega
          · show rest.length ≤ 4
            omega }
      have worked := reserved.trans (State.keeps_runCommand _ c)
      exact worked.trans {}
    · exact .refl s

theorem State.keeps_arrive (c : Command) : s.Keeps (s.arrive c) := by
  unfold State.arrive
  split
  · next room =>
    have queued : s.Keeps { s with commands := s.commands ++ [c] } := {
      queues := fun ⟨slots, _⟩ => ⟨slots, by simpa using room⟩ }
    exact queued.trans (State.keeps_tryTake _)
  · exact (s.steady_pushLocal _ _).toKeeps

theorem State.keeps_intake (src : Byte) (payload : List Byte) : s.Keeps (s.intake src payload) := by
  unfold State.intake
  split
  · exact s.keeps_arrive _
  · exact .refl s

theorem State.steady_placeAnswer (x : InExecution) : s.Steady (s.placeAnswer x) := by
  unfold State.placeAnswer
  split
  · exact .refl s
  · have freed : s.Steady (s.setPort .plant { s.plant with reserved := s.plant.reserved - 1 }) :=
      s.steady_setPort_of_link rfl rfl (Nat.add_le_add_left (Nat.sub_le _ _) _) (fun _ silent => silent)
        fun _ buffer => buffer
    exact freed.trans (State.steady_pushLocal _ _ _)

/-- R172: the command leaves execution. -/
theorem State.steady_answered (x : InExecution) : s.Steady { s.placeAnswer x with executing := none } :=
  (s.steady_placeAnswer x).trans { executing := .inr rfl }

theorem State.keeps_answerEvent : s.Keeps s.answerEvent := by
  unfold State.answerEvent
  split
  · exact .refl s
  · exact (s.steady_answered _).toKeeps.trans (State.keeps_tryTake _)

/-! ### Frames (R159 to R161) -/

theorem State.keeps_tap (f : Frame) : s.Keeps (s.tap p f) := by
  unfold State.tap
  split
  · cases p
    · exact (s.steady_tapSmpl _ _).toKeeps
    · exact .refl s
  · split
    · cases p
      · exact (s.steady_tapHelo _ _).toKeeps
      · exact .refl s
    · split
      · exact .ite (fun _ => (s.steady_takeMark _ _).toKeeps) fun _ => .refl s
      · split
        · cases p
          · exact .refl s
          · exact .ite (fun _ => s.keeps_intake _ _) fun _ => .refl s
        · exact .refl s

theorem State.keeps_receive (f : Frame) (begun : Begun) : s.Keeps (s.receive p f begun) := by
  unfold State.receive
  split
  · next up =>
    exact .ite (fun _ => (s.steady_forward up f begun).toKeeps.trans (State.keeps_tap _ p f))
      fun _ => (s.steady_badEnd p _).toKeeps
  · exact .refl s

theorem State.keeps_receiveBytes (bytes : List Byte) (aborted : Bool) : s.Keeps (s.receiveBytes p bytes aborted) := by
  have bad := (s.steady_badEnd p bytes).toKeeps
  unfold State.receiveBytes
  split
  · exact .ite (fun _ => bad) fun _ => s.keeps_receive p _ _
  · exact bad

/-! ### What follows every event (R163, R179 to R181) -/

theorem State.steady_attend : s.Steady s.attend := by
  have levels : s.Steady s.refreshLevels := {}
  have alerted (x : Option Source) : s.Steady (s.refreshLevels.setLastAlerted x) := levels.trans {}
  unfold State.attend
  dsimp only
  split
  · exact alerted none
  · exact .ite (fun _ => levels) fun _ => .ite (fun _ => alerted _) fun _ =>
      (alerted _).trans (State.steady_pushLocal _ _ _)

theorem steady_settle : s.Steady (settle s) :=
  (s.steady_attend.trans (State.steady_startIdle _ _)).trans (State.steady_startIdle _ _)

/-! ### The rows -/

/-- Every row but a reset is an operation that keeps what the rows keep, and then what follows every event. -/
theorem exec_eq_next_settle {c : Instr} (power : ∀ a h, c ≠ .powerOnReset a h) (pin : ∀ a h, c ≠ .pinReset a h) :
    ∃ u, exec c s = .next (settle u) ∧ s.Keeps u := by
  cases c with
  | powerOnReset a h => exact absurd rfl (power a h)
  | pinReset a h => exact absurd rfl (pin a h)
  | stat | runa | hlta | clra | isol | ldfn | rdfn | ldln | rdln | jobl | ldst | rdst | sten | lstn | clos | snap | rdsn
  | take | look | rdtt | sett | adjt | rdtm | ldat | atds | peek | ackn | eoas | eoan | rdfl | clfl | injf | lkcf | lkst
  | unknownCommand => exact ⟨_, rfl, s.keeps_arrive _⟩
  | answerEvent => exact ⟨_, rfl, s.keeps_answerEvent⟩
  | cmndReceived | smplReceived | heloReceived | markReceived | frameForwardOnly => exact ⟨_, rfl, s.keeps_receive _ _ _⟩
  | badFrame => exact ⟨_, rfl, s.keeps_receiveBytes _ _ _⟩
  | selectTimerExpiry => exact ⟨_, rfl, (s.steady_selectExpiry _).toKeeps⟩
  | staleTimerExpiry => exact ⟨_, rfl, (s.steady_staleExpiry _).toKeeps⟩
  | intervalTimerExpiry => exact ⟨_, rfl, (s.steady_intervalExpiry _).toKeeps⟩
  | holdTimerExpiry => exact ⟨_, rfl, (s.steady_holdExpiry _).toKeeps⟩
  | inputPinChange => exact ⟨_, rfl, (s.steady_pinChange _ _).toKeeps⟩
  | cutEdge => exact ⟨_, rfl, (s.steady_cutEdge _).toKeeps⟩
  | rejEdge => exact ⟨_, rfl, (s.steady_rejEdge _).toKeeps⟩
  | divLevelChange => exact ⟨_, rfl, (s.steady_divChange _).toKeeps⟩
  | reversal => exact ⟨_, rfl, (s.steady_revEdge _).toKeeps⟩
  | endOfBlanking => exact ⟨_, rfl, (s.steady_blankingExpiry _).toKeeps⟩
  | stopTimerExpiry => exact ⟨_, rfl, (s.steady_stopExpiry _).toKeeps⟩
  | secondMark => exact ⟨_, rfl, s.steady_secondMark.toKeeps⟩
  | boundaryEvent => exact ⟨_, rfl, (s.steady_boundaryEvent _).toKeeps⟩
  | plantSecondsWrap => exact ⟨_, rfl, s.steady_plantWrap.toKeeps⟩
  | closeCompletion => exact ⟨_, rfl, (s.steady_complete _).toKeeps⟩
  | offerBurstSend => exact ⟨_, rfl, (s.steady_sendBurst _).toKeeps⟩
  | linkSignalSeen => exact ⟨_, rfl, (s.steady_firstSignal _ _).toKeeps⟩
  | offerBurstReceived => exact ⟨_, rfl, (s.steady_burstReceived _ _).toKeeps⟩
  | idleDetection => exact ⟨_, rfl, (s.steady_idleDetected _ _).toKeeps⟩
  | linkSignalLoss => exact ⟨_, rfl, (s.steady_signalLoss _).toKeeps.trans (State.keeps_tryTake _)⟩
  | partnerRestart => exact ⟨_, rfl, (s.steady_partnerRestarts _ _).toKeeps.trans (State.keeps_tryTake _)⟩
  | transmitStart => exact ⟨_, rfl, (s.steady_transmitStart _ _).toKeeps.trans (State.keeps_tryTake _)⟩
  | frameSent => exact ⟨_, rfl, (s.steady_frameSent _).toKeeps⟩
  | forwardOverrun => exact ⟨_, rfl, (s.steady_forwardOverrun _ _).toKeeps⟩
  | forwardUnderrun => exact ⟨_, rfl, (s.steady_forwardUnderrun _).toKeeps⟩
  | fallingEdge => exact ⟨_, rfl, (s.steady_fallingEdge _).toKeeps⟩

end Sys2Proof.Machine
end

section
/-! PROOFS. What every step keeps and leaves, from what each event keeps. -/

namespace Sys2Proof.Machine

set_option Elab.async false

/-! ### The passage of time (log 1, 2) -/

/-- The kinds of events that time brings. -/
theorem forall_mem_timedEvents {P : (State → State) → Prop} (closeGaps : P State.closeGaps) (plantWrap : P State.plantWrap)
    (boundaryEvent : ∀ g, P fun s => s.boundaryEvent g) (divChange : ∀ l, P fun s => s.divChange l)
    (cutEdge : ∀ l, P fun s => s.cutEdge l) (rejEdge : ∀ l, P fun s => s.rejEdge l)
    (fallingEdge : ∀ e, P fun s => s.fallingEdge e) (revEdge : ∀ f, P fun s => s.revEdge f)
    (stopExpiry : ∀ l, P fun s => s.stopExpiry l) (blankingExpiry : ∀ f, P fun s => s.blankingExpiry f)
    (selectExpiry : ∀ k, P fun s => s.selectExpiry k) (staleExpiry : ∀ k, P fun s => s.staleExpiry k)
    (intervalExpiry : ∀ k, P fun s => s.intervalExpiry k) (holdExpiry : ∀ k, P fun s => s.holdExpiry k)
    (secondMark : P State.secondMark) (forcedCompletion : ∀ g, P fun s => s.forcedCompletion g)
    (forcedAnswer : P State.forcedAnswer) (burst : ∀ p, P fun s => s.burst p) : ∀ event ∈ timedEvents, P event := by
  simp only [timedEvents, List.forall_mem_append, List.forall_mem_cons, List.forall_mem_map, List.not_mem_nil,
    false_imp_iff, implies_true, and_true, List.mem_finRange, true_imp_iff]
  exact ⟨⟨⟨⟨⟨⟨⟨⟨⟨⟨⟨⟨⟨⟨⟨⟨⟨closeGaps, plantWrap⟩, boundaryEvent⟩, divChange⟩, cutEdge⟩, rejEdge⟩, fun l => fallingEdge (.cut l)⟩,
    fun l => fallingEdge (.rej l)⟩, revEdge⟩, stopExpiry⟩, blankingExpiry⟩, selectExpiry⟩, staleExpiry⟩,
    intervalExpiry⟩, holdExpiry⟩, secondMark⟩, forcedCompletion⟩, forcedAnswer, burst .field, burst .plant⟩

theorem State.steady_gaps (s : State) : s.Steady ((s.transmit .field).transmit .plant) :=
  (s.steady_transmit .field).trans (State.steady_transmit _ .plant)

/-- Every event that time brings keeps what the rows keep. -/
theorem keeps_of_mem_timedEvents : ∀ event ∈ timedEvents, ∀ s : State, s.Keeps (event s) :=
  forall_mem_timedEvents
    (fun s => s.steady_gaps.toKeeps.trans (State.keeps_tryTake _))
    (fun s => s.steady_plantWrap.toKeeps)
    (fun g s => (s.steady_boundaryEvent g).toKeeps)
    (fun l s => (s.steady_divChange l).toKeeps)
    (fun l s => (s.steady_cutEdge l).toKeeps)
    (fun l s => (s.steady_rejEdge l).toKeeps)
    (fun e s => (s.steady_fallingEdge e).toKeeps)
    (fun f s => (s.steady_revEdge f).toKeeps)
    (fun l s => (s.steady_stopExpiry l).toKeeps)
    (fun f s => (s.steady_blankingExpiry f).toKeeps)
    (fun k s => (s.steady_selectExpiry k).toKeeps)
    (fun k s => (s.steady_staleExpiry k).toKeeps)
    (fun k s => (s.steady_intervalExpiry k).toKeeps)
    (fun k s => (s.steady_holdExpiry k).toKeeps)
    (fun s => s.steady_secondMark.toKeeps)
    (fun g s => .ite (fun _ => (s.steady_complete g).toKeeps) fun _ => .refl s)
    (fun s => .ite (fun _ => s.keeps_answerEvent) fun _ => .refl s)
    (fun p s => (s.steady_sendBurst p).toKeeps)

/-- Events that keep, each with what follows every event, keep one after the other. -/
theorem keeps_foldl_settle {events : List (State → State)} (h : ∀ event ∈ events, ∀ s : State, s.Keeps (event s)) (s : State) :
    s.Keeps (events.foldl (fun t event => settle (event t)) s) := by
  induction events generalizing s with
  | nil => exact .refl s
  | cons event events ih =>
    obtain ⟨first, rest⟩ := List.forall_mem_cons.mp h
    exact ((first s).trans (steady_settle _).toKeeps).trans (ih rest _)

theorem State.keeps_takeDue (s : State) : s.Keeps s.takeDue := keeps_foldl_settle keeps_of_mem_timedEvents s

theorem State.upholds_tick (s : State) : s.Upholds s.tick := by
  have advanced (t : State) : t.Upholds { t with clock := t.clock.advance } := {}
  exact s.keeps_takeDue.toUpholds.trans (advanced _)

/-- A millisecond's events end with what follows every event. -/
theorem State.takeDue_eq_settle (s : State) : ∃ u, s.takeDue = settle u := by
  obtain ⟨events, event, split⟩ := (List.eq_nil_or_concat timedEvents).resolve_left (by simp [timedEvents])
  unfold State.takeDue
  rw [split]
  exact ⟨_, by rw [List.concat_eq_append, List.foldl_append]; rfl⟩

/-! ### The resets (R13, R20, R165) -/

section
variable (s : State) (straps : Byte) (pthru : Bool)

theorem State.recordsInOrder_resetWith : (s.resetWith straps pthru).RecordsInOrder :=
  ⟨Nat.zero_le _, Nat.zero_le _, .nil⟩

theorem State.zeroOutsideAccounting_resetWith : (s.resetWith straps pthru).ZeroOutsideAccounting :=
  fun _ => ⟨fun _ => vget_replicate _ _, fun _ => vget_replicate _ _, fun _ => congrArg _ (vget_replicate _ _)⟩

theorem State.deferredOnlyClosing_resetWith : (s.resetWith straps pthru).DeferredOnlyClosing :=
  fun g _ => congrArg GroupClose.deferred (vget_replicate _ g)

theorem State.noSharedPriority_resetWith : (s.resetWith straps pthru).NoSharedPriority :=
  fun x _ hx => by cases x <;> cases hx

theorem State.pairsDistinct_resetWith : (s.resetWith straps pthru).PairsDistinct :=
  fun j _ _ _ ha => nomatch (vget_replicate none j).symm.trans ha

theorem State.queuesWithinBounds_resetWith : (s.resetWith straps pthru).QueuesWithinBounds :=
  ⟨⟨Nat.zero_le _, Nat.zero_le _⟩, Nat.zero_le _⟩

theorem State.portsEmptyUnlessUp_resetWith : (s.resetWith straps pthru).PortsEmptyUnlessUp :=
  ⟨⟨⟨nofun, nofun⟩, fun _ => ⟨rfl, rfl, rfl, rfl, rfl⟩⟩, ⟨⟨nofun, nofun⟩, fun _ => ⟨rfl, rfl, rfl, rfl, rfl⟩⟩⟩

theorem State.liveWithinCaps_resetWith : (s.resetWith straps pthru).LiveWithinCaps := by
  refine ⟨fun f => ?_, fun l => ?_⟩
  · show FurnaceLive.WithinCaps (vget (Vector.replicate 4 {}) f)
    rw [vget_replicate]
    exact .fresh
  · show LineLive.WithinCaps (vget (Vector.replicate 8 {}) l)
    rw [vget_replicate]
    exact .fresh

/-- The state after a reset meets the invariants, whatever the state before. -/
theorem State.upholds_resetWith (r : State) : r.Upholds (s.resetWith straps pthru) where
  records _ := s.recordsInOrder_resetWith straps pthru
  zero _ := s.zeroOutsideAccounting_resetWith straps pthru
  deferred _ := s.deferredOnlyClosing_resetWith straps pthru
  priorities _ := s.noSharedPriority_resetWith straps pthru
  pairs _ := s.pairsDistinct_resetWith straps pthru
  queues _ := s.queuesWithinBounds_resetWith straps pthru
  ports _ := s.portsEmptyUnlessUp_resetWith straps pthru
  live _ := s.liveWithinCaps_resetWith straps pthru

/-- Nothing is pending after a reset, and no frame is ready: what follows every event does nothing. -/
theorem settle_resetWith : settle (s.resetWith straps pthru) = s.resetWith straps pthru := by
  have levels : (s.resetWith straps pthru).refreshLevels = s.resetWith straps pthru := by
    cases pthru <;> rfl
  have attended : (s.resetWith straps pthru).attend = s.resetWith straps pthru := by
    unfold State.attend
    rw [levels]
    rfl
  unfold settle
  rw [attended, State.startIdle_of_none (p := .field) (.inl rfl), State.startIdle_of_none (p := .plant) (.inl rfl)]

end

/-! ### Steps -/

/-- A row that is no reset. -/
def isReset : Instr → Bool
  | .powerOnReset _ _ => true
  | .pinReset _ _ => true
  | _ => false

/-- Every row but a reset is an operation that keeps what the rows keep, and then what follows every event. -/
theorem exec_of_not_reset {c : Instr} (h : isReset c = false) (s : State) :
    ∃ u, exec c s = .next (settle u) ∧ s.Keeps u :=
  exec_eq_next_settle s (fun _ _ e => by subst e; cases h) fun _ _ e => by subst e; cases h

theorem exec_of_reset {c : Instr} (h : isReset c = true) :
    ∃ straps pthru, ∀ s : State, exec c s = .next (s.resetWith straps pthru) := by
  unfold isReset at h
  split at h
  · next straps pthru => exact ⟨straps, pthru, fun s => congrArg _ (settle_resetWith s straps pthru)⟩
  · next straps pthru => exact ⟨straps, pthru, fun s => congrArg _ (settle_resetWith s straps pthru)⟩
  · cases h

/-- Every step upholds the invariants. -/
theorem upholds_of_step {s t : State} (h : step s = .next t) : s.Upholds t := by
  unfold step at h
  split at h
  · obtain rfl := Host.Outcome.next.inj h
    exact s.upholds_tick
  · next c rest _ =>
    have taken : s.Upholds (s.withPending rest) := {}
    cases reset : isReset c with
    | true =>
      obtain ⟨straps, pthru, run⟩ := exec_of_reset reset
      obtain rfl := Host.Outcome.next.inj ((run _).symm.trans h)
      exact State.upholds_resetWith _ straps pthru s
    | false =>
      obtain ⟨u, run, kept⟩ := exec_of_not_reset reset (s.withPending rest)
      obtain rfl := Host.Outcome.next.inj (run.symm.trans h)
      exact (taken.trans kept.toUpholds).trans (steady_settle u).toUpholds

/-! ### Alerts (R179 to R181) -/

theorem Attention.mostUrgent_congr {a b : Attention} (h : a.priority = b.priority) (l : List Source) :
    a.mostUrgent l = b.mostUrgent l := by
  induction l with
  | nil => rfl
  | cons x l ih =>
    simp only [Attention.mostUrgent, Attention.prio, ih, h]
    rfl

/-- The last-alerted source does not enter eligibility. -/
theorem State.highest_setLastAlerted (s : State) (x : Option Source) :
    (s.setLastAlerted x).attention.highest = s.attention.highest :=
  Attention.mostUrgent_congr (a := (s.setLastAlerted x).attention) (b := s.attention) rfl _

/-- R181: the attention unit's work leaves the last-alerted source the highest, with the levels refreshed. -/
theorem State.attend_attention (s : State) :
    s.attend.attention = { s.refreshLevels.attention with lastAlerted := s.refreshLevels.attention.highest } := by
  unfold State.attend
  dsimp only
  split
  · next none => rw [none]; rfl
  · next x some =>
    rw [some]
    split
    · next alerted => rw [← alerted]
    · split
      · rfl
      · rw [State.pushLocal_frame]
        rfl

theorem State.refreshLevels_lstp (s : State) : s.refreshLevels.attention.isPending .lstp = s.lstpHolds := by
  unfold State.refreshLevels Attention.isPending Attention.setPending
  dsimp only
  rw [vget_vset_other _ (by decide), vget_vset_same]

theorem State.refreshLevels_qful (s : State) : s.refreshLevels.attention.isPending .qful = s.qfulHolds :=
  vget_vset_same _ _ _

theorem alerted_settle (s : State) : (settle s).Alerted := by
  have attention := (settle_attention s).trans s.attend_attention
  have frame := settle_frame s
  refine ⟨?_, ?_, ?_⟩
  · rw [attention]
    refine s.refreshLevels_lstp.trans ?_
    rw [frame]
    rfl
  · rw [attention]
    refine s.refreshLevels_qful.trans ?_
    rw [frame]
    rfl
  · rw [attention]
    exact (s.refreshLevels.highest_setLastAlerted _).symm

theorem alerted_of_step {s t : State} (h : step s = .next t) : t.Alerted := by
  unfold step at h
  split at h
  · obtain rfl := Host.Outcome.next.inj h
    obtain ⟨u, due⟩ := s.takeDue_eq_settle
    have advanced (v : State) (alerted : v.Alerted) : State.Alerted { v with clock := v.clock.advance } := alerted
    exact advanced s.takeDue (due ▸ alerted_settle u)
  · next c rest _ =>
    cases reset : isReset c with
    | true =>
      obtain ⟨straps, pthru, run⟩ := exec_of_reset reset
      obtain rfl := Host.Outcome.next.inj ((run _).symm.trans h)
      rw [← settle_resetWith]
      exact alerted_settle _
    | false =>
      obtain ⟨u, run, -⟩ := exec_of_not_reset reset (s.withPending rest)
      obtain rfl := Host.Outcome.next.inj (run.symm.trans h)
      exact alerted_settle u

end Sys2Proof.Machine

open Sys2Proof Sys2Proof.Machine

/-- Settles O1: by the definition of a step. -/
theorem stepRunsTheFrontCommand : Obligations.StepRunsTheFrontCommand := fun _ _ _ => rfl

/-- Settles O2: each row is an operation that keeps what rows keep, or a reset. -/
theorem commandsGoOnAndKeepQueueBaseAndStraps : Obligations.CommandsGoOnAndKeepQueueBaseAndStraps := by
  refine ⟨fun c s => ?_, fun c s t power pin h => ?_⟩
  · cases reset : isReset c with
    | true =>
      obtain ⟨straps, pthru, run⟩ := exec_of_reset reset
      exact ⟨_, run s, rfl⟩
    | false =>
      obtain ⟨u, run, kept⟩ := exec_of_not_reset reset s
      exact ⟨_, run, (steady_settle u).pending.trans kept.pending⟩
  · obtain ⟨u, run, kept⟩ := exec_eq_next_settle s power pin
    obtain rfl := Host.Outcome.next.inj (run.symm.trans h)
    have kept := kept.trans (steady_settle u).toKeeps
    exact ⟨kept.elapsed, kept.address, kept.pthru⟩

/-- Settles O3: what follows a reset does nothing. -/
theorem resetsGiveResetValues : Obligations.ResetsGiveResetValues := fun straps pthru s =>
  ⟨congrArg _ (settle_resetWith s straps pthru), congrArg _ (settle_resetWith s straps pthru)⟩

/-- Settles O4: the reset state is the state after a reset with straps of 254, and what follows it does nothing. -/
theorem resetMeetsTheInvariants : Obligations.ResetMeetsTheInvariants := by
  have reset : State.reset = State.reset.resetWith 254#8 false := rfl
  unfold Obligations.ResetMeetsTheInvariants
  rw [reset]
  refine ⟨State.recordsInOrder_resetWith _ _ _, State.zeroOutsideAccounting_resetWith _ _ _,
    State.noSharedPriority_resetWith _ _ _, State.queuesWithinBounds_resetWith _ _ _,
    State.deferredOnlyClosing_resetWith _ _ _, State.pairsDistinct_resetWith _ _ _,
    State.portsEmptyUnlessUp_resetWith _ _ _, ?_, State.liveWithinCaps_resetWith _ _ _⟩
  rw [← settle_resetWith]
  exact alerted_settle _

/-- Settles O5: every step upholds the order of the records. -/
theorem stepKeepsRecordsInOrder : Obligations.StepKeepsRecordsInOrder := fun _ _ h k => (upholds_of_step k).records h

/-- Settles O6: every step upholds zero sets and deferred flags. -/
theorem stepKeepsZeroSetsAndDeferredFlags : Obligations.StepKeepsZeroSetsAndDeferredFlags :=
  ⟨fun _ _ h k => (upholds_of_step k).zero h, fun _ _ h k => (upholds_of_step k).deferred h⟩

/-- Settles O7: every step upholds distinct priorities and pairs. -/
theorem stepKeepsPrioritiesAndPairsDistinct : Obligations.StepKeepsPrioritiesAndPairsDistinct :=
  ⟨fun _ _ h k => (upholds_of_step k).priorities h, fun _ _ h k => (upholds_of_step k).pairs h⟩

/-- Settles O8: every step upholds the bounds of the queues and the ports. -/
theorem stepKeepsQueuesAndPorts : Obligations.StepKeepsQueuesAndPorts :=
  ⟨fun _ _ h k => (upholds_of_step k).queues h, fun _ _ h k => (upholds_of_step k).ports h⟩

/-- Settles O9: every step upholds the bounds of the live sets. -/
theorem stepKeepsLiveWithinCaps : Obligations.StepKeepsLiveWithinCaps := fun _ _ h k => (upholds_of_step k).live h

/-- Settles O10: every step ends with the attention unit's work. -/
theorem everyStepLeavesTheUnitAlerted : Obligations.EveryStepLeavesTheUnitAlerted := fun _ _ => alerted_of_step
end

section
/-! PROOFS. Bytes read back (R159, R189, R194), and the commands that read and change nothing (R4, R7, R24, R49, R97, R139,
R151, R171, R178, R184). -/

namespace Sys2Proof.Machine

set_option Elab.async false

/-! ### Frames and fields (R159, R189, R194) -/

theorem be_two_eq (x : Nat) : be 2 x = [BitVec.ofNat 8 (x / 256), BitVec.ofNat 8 x] := by simp [be]

/-- R189: a frame's bytes, taken apart as R159 judges them. -/
theorem Frame.bytes_eq (f : Frame) : f.bytes =
    f.dest :: f.src :: f.kind :: BitVec.ofNat 8 (f.payload.length / 256) :: BitVec.ofNat 8 f.payload.length ::
      (f.payload ++ be 2 (crc16 f.body).toNat) := by
  simp [Frame.bytes, Frame.body, be_two_eq]

/-- R159: the bytes of a frame are accepted as itself. -/
theorem acceptBytes_bytes {f : Frame} (h : f.payload.length ≤ 248) : acceptBytes f.bytes = some f := by
  have count : beNat [BitVec.ofNat 8 (f.payload.length / 256), BitVec.ofNat 8 f.payload.length] = f.payload.length := by
    rw [← be_two_eq, beNat_be]
    omega
  have body : f.bytes.take (f.payload.length + 5) = f.body := by
    have size : f.body.length = f.payload.length + 5 := by
      simp [Frame.body, be_length]
      omega
    exact List.take_left' size
  rw [Frame.bytes_eq] at body ⊢
  simp only [acceptBytes, count, body]
  rw [if_pos ⟨h, by simp [be_length], List.drop_left⟩, List.take_left]

/-- R194: packed fields within their widths read back. -/
theorem fields_packFields {l : List (Nat × Nat)} (h : ∀ p ∈ l, p.2 < 256 ^ p.1) :
    fields (l.map (·.1)) (packFields l) = some (l.map (·.2)) := by
  induction l with
  | nil => rfl
  | cons p l ih =>
    obtain ⟨fits, rest⟩ := List.forall_mem_cons.mp h
    simp only [List.map_cons, packFields]
    rw [fields_be _ _ _ _ fits, ih rest]
    rfl

/-! ### Numbers in arguments (R191) -/

/-- An index sent as one byte reads back. -/
theorem toNat_ofNat_val {n : Nat} (h : n ≤ 256) (i : Fin n) : (BitVec.ofNat 8 i.val).toNat = i.val := by
  simp only [BitVec.toNat_ofNat]
  exact Nat.mod_eq_of_lt (lt_of_lt_of_le i.isLt h)

theorem fin?_ofNat {n : Nat} (h : n ≤ 256) (i : Fin n) : fin? n (BitVec.ofNat 8 i.val).toNat = some i :=
  fin?_of_eq i (toNat_ofNat_val h i).symm

/-- An account's number names it. -/
theorem account?_number (a : Account) : account? a.number = some a := by
  cases a with
  | furnace f => simp [Account.number, account?]
  | line l => simp [Account.number, account?]

theorem account?_of_le {x : Nat} (h : 12 ≤ x) : account? x = none := by
  simp [account?, show ¬x < 4 by omega, show ¬x - 4 < 8 by omega]

theorem Account.number_lt (a : Account) : a.number < 12 := by
  cases a <;> simp only [Account.number] <;> omega

theorem account?_ofNat (a : Account) : account? (BitVec.ofNat 8 a.number).toNat = some a := by
  have small := a.number_lt
  rw [BitVec.toNat_ofNat, Nat.mod_eq_of_lt (by omega), account?_number]

/-! ### The reading commands -/

section
variable {src tag : Byte} {s : State}

/-- R171: a code outside the Command Index names no handler. -/
theorem runCommand_of_unknown {c : Command} (h : c.code.toNat ∉ commandCodes) (s : State) :
    runCommand c s = (⟨.unknown, []⟩, s) := by
  have codes : commandCodes = handlers.map (·.1) := rfl
  have none : handlers.lookup c.code.toNat = none := by
    rw [List.lookup_eq_none_iff]
    intro p hp
    rw [codes] at h
    simp only [bne_iff_ne, ne_eq]
    exact fun e => h (e ▸ List.mem_map_of_mem hp)
  simp only [runCommand, none]
  rfl

theorem Injection.bytes_eq : Injection.bytes =
    fun j => be 1 j.item.region ++ be 1 j.item.index ++ [if j.double then 2#8 else 1#8] := by
  funext j
  unfold Injection.bytes
  cases j.double <;> rfl

theorem takePeek_of_highest (s : State) : takePeek [] s =
    ((match s.attention.highest with
      | none => ⟨.none, []⟩
      | some x => ⟨.done, s.attention.report x⟩), s) := by
  unfold takePeek
  rw [fields_nil]
  dsimp only
  cases s.attention.highest <;> rfl

/-- R139: rdtt answers the totals of the account its number names. -/
theorem exec_rdtt (h : s.free) (a : Account) : exec (.rdtt src tag (BitVec.ofNat 8 a.number)) s =
    .next (s.taken ⟨src, 0x35#8, tag, [BitVec.ofNat 8 a.number]⟩
      ⟨.done, match a with
        | .furnace f => (vget s.furnaceTotals f).bytes
        | .line l => (vget s.lineTotals l).bytes⟩ s.reserveSlot) := by
  refine next_taken h (packFields_one _ _) ?_
  rw [runCommand_rdtt, takeRdtt, fields_one]
  simp only [account?_ofNat]
  cases a <;> rfl

theorem exec_rdtt_of_le (h : s.free) {a : Byte} (ha : 12 ≤ a.toNat) : exec (.rdtt src tag a) s =
    .next (s.taken ⟨src, 0x35#8, tag, [a]⟩ ⟨.badarg, []⟩ s.reserveSlot) := by
  refine next_taken h (packFields_one _ _) ?_
  rw [runCommand_rdtt, takeRdtt, fields_one]
  simp only [account?_of_le ha]
  rfl

/-- R4: rdfn in sound storage. -/
theorem exec_rdfn (h : s.free) (sound : s.sound) (f : Fin 4) : exec (.rdfn src tag (BitVec.ofNat 8 f.val)) s =
    .next (s.taken ⟨src, 0x11#8, tag, [BitVec.ofNat 8 f.val]⟩
      ⟨.done, (s.furnaceCfg f).bytes ++ listBytes (fun l : Fin 8 => be 1 l.val) (s.linesOf f) ++
        flagByte (s.isClosing f) ++ flagByte (s.group f).deferred ++ be 4 (s.group f).period⟩ s.reserveSlot) := by
  refine next_taken h (packFields_one _ _) ?_
  rw [runCommand_rdfn, takeRdfn, fields_one]
  simp only [fin?_ofNat (by decide : 4 ≤ 256), touch_of_sound (sound_reserveSlot sound)]
  rfl

/-- R7: rdln in sound storage. -/
theorem exec_rdln (h : s.free) (sound : s.sound) (l : Fin 8) : exec (.rdln src tag (BitVec.ofNat 8 l.val)) s =
    .next (s.taken ⟨src, 0x13#8, tag, [BitVec.ofNat 8 l.val]⟩
      ⟨.done, (s.lineCfg l).bytes ++ be 1 (s.job l).gobs ++ be 2 (s.job l).weight ++
        flagByte (s.lineInput l).running⟩ s.reserveSlot) := by
  refine next_taken h (packFields_one _ _) ?_
  rw [runCommand_rdln, takeRdln, fields_one]
  simp only [fin?_ofNat (by decide : 8 ≤ 256), touch_of_sound (sound_reserveSlot sound)]
  rfl

/-- R24: rdst in sound storage. -/
theorem exec_rdst (h : s.free) (sound : s.sound) (k : Fin 48) : exec (.rdst src tag (BitVec.ofNat 8 k.val)) s =
    .next (s.taken ⟨src, 0x21#8, tag, [BitVec.ofNat 8 k.val]⟩
      ⟨.done, match s.stream k with
        | none => [0#8]
        | some st => 1#8 :: (st.entry.bytes ++ st.live.bytes)⟩ s.reserveSlot) := by
  refine next_taken h (packFields_one _ _) ?_
  rw [runCommand_rdst, takeRdst, fields_one]
  simp only [fin?_ofNat (by decide : 48 ≤ 256), touch_of_sound (sound_reserveSlot sound),
    errorsIn_of_sound (sound_reserveSlot sound)]
  show (match s.stream k with | none => _ | some st => _) = _
  cases s.stream k <;> rfl

theorem exec_rdfn_of_le (h : s.free) {n : Byte} (hn : 4 ≤ n.toNat) : exec (.rdfn src tag n) s =
    .next (s.taken ⟨src, 0x11#8, tag, [n]⟩ ⟨.badarg, []⟩ s.reserveSlot) := by
  refine next_taken h (packFields_one _ _) ?_
  rw [runCommand_rdfn, takeRdfn, fields_one]
  simp only [fin?_of_le hn]
  rfl

theorem exec_rdln_of_le (h : s.free) {n : Byte} (hn : 8 ≤ n.toNat) : exec (.rdln src tag n) s =
    .next (s.taken ⟨src, 0x13#8, tag, [n]⟩ ⟨.badarg, []⟩ s.reserveSlot) := by
  refine next_taken h (packFields_one _ _) ?_
  rw [runCommand_rdln, takeRdln, fields_one]
  simp only [fin?_of_le hn]
  rfl

theorem exec_rdst_of_le (h : s.free) {n : Byte} (hn : 48 ≤ n.toNat) : exec (.rdst src tag n) s =
    .next (s.taken ⟨src, 0x21#8, tag, [n]⟩ ⟨.badarg, []⟩ s.reserveSlot) := by
  refine next_taken h (packFields_one _ _) ?_
  rw [runCommand_rdst, takeRdst, fields_one]
  simp only [fin?_of_le hn]
  rfl

end

end Sys2Proof.Machine

open Sys2Proof Sys2Proof.Machine

/-- Settles O15: a frame's bytes taken apart, and induction on the fields. -/
theorem bytesReadBack : Obligations.BytesReadBack := ⟨fun _ => acceptBytes_bytes, fun _ => fields_packFields⟩

/-- Settles O18: each reading command's handler answers the fields it reads and gives the state back. -/
theorem readingCommandsAnswer : Obligations.ReadingCommandsAnswer := by
  refine ⟨fun src tag s free => ?_, fun src tag s free => ?_, fun src tag code args s free unknown => ?_⟩
  · intro a mask causes
    refine ⟨next_taken free rfl rfl, next_taken free rfl rfl, next_taken free rfl rfl, next_taken free rfl ?_,
      next_taken free rfl ?_⟩
    · rw [runCommand_rdfl, takeRdfl, fields_nil, Injection.bytes_eq]
      rfl
    · have report (x : Source) : a.report x = be 1 x.code.val ++ be 1 (a.prio x) ++ causes x := by cases x <;> rfl
      rw [runCommand_peek, takePeek_of_highest]
      show ((match a.highest with | none => _ | some x => _), _) = _
      cases a.highest with
      | none => rfl
      | some x => exact congrArg (fun r => (({ status := .done, results := r } : Reply), s.reserveSlot)) (report x)
  · exact ⟨fun f => exec_rdtt free (.furnace f), fun l => exec_rdtt free (.line l), fun _ => exec_rdtt_of_le free⟩
  · exact next_taken free rfl (runCommand_of_unknown unknown _)

/-- Settles O19: in sound storage a read gives what stands, spelt by its layout. -/
theorem accountsAndStreamsRead : Obligations.AccountsAndStreamsRead := by
  intro src tag s free sound
  refine ⟨fun f => ?_, fun l => ?_, fun k => ?_, fun _ => exec_rdfn_of_le free, fun _ => exec_rdln_of_le free,
    fun _ => exec_rdst_of_le free⟩
  · rw [exec_rdfn free sound]
    simp only [FurnaceConfig.bytes, List.append_assoc]
    rfl
  · rw [exec_rdln free sound]
    simp only [LineConfig.bytes, List.append_assoc]
    rfl
  · rw [exec_rdst free sound]
    cases s.stream k with
    | none => rfl
    | some st =>
      simp only [StreamEntry.bytes, StreamLive.bytes, List.append_assoc]
      rfl
end

section
/-! PROOFS. The run states (R15 to R19), and the fault record and injections (R152, R153). -/

namespace Sys2Proof.Machine

set_option Elab.async false

/-! ### The state after a taken command -/

/-- R163, R181: what follows a taken command moves the attention unit and the ports alone. -/
theorem State.taken_frame (s : State) (c : Command) (r : Reply) (e : State) : ∃ a f p, s.taken c r e = { e with
    executing := some { command := c, reply := r, due := s.now + 2 }, attention := a, field := f, plant := p } :=
  ⟨_, _, _, settle_frame _⟩

/-! ### Entries of a vector written in turn -/

theorem vget_foldl_vset {α : Type} {n : Nat} (g : Fin n → α → α) {l : List (Fin n)} (distinct : l.Nodup)
    (v : Vector α n) (j : Fin n) :
    vget (l.foldl (fun v i => vset v i (g i (vget v i))) v) j = if j ∈ l then g j (vget v j) else vget v j := by
  induction l generalizing v with
  | nil => rfl
  | cons i l ih =>
    obtain ⟨fresh, rest⟩ := List.nodup_cons.mp distinct
    rw [List.foldl_cons, ih rest, vget_vset]
    by_cases h : i = j
    · subst h
      simp [fresh]
    · simp [h, Ne.symm h]

/-- Every entry written once. -/
theorem foldl_vset_finRange {α : Type} {n : Nat} (g : Fin n → α → α) (v : Vector α n) :
    (List.finRange n).foldl (fun v i => vset v i (g i (vget v i))) v = vgen fun i => g i (vget v i) :=
  vec_ext fun j => by rw [vget_foldl_vset g (List.nodup_finRange n), if_pos (List.mem_finRange j), vget_vgen]

/-! ### Tracking (R76) -/

variable (s : State)

/-- R76, R6: a line's inputs where its tracking starts, if it does. -/
def LineInput.tracking (x : LineInput) (starts : Bool) (pins : Pins) (l : Fin 8) : LineInput :=
  if starts then
    { x with
      cut := some { level := vget pins.cut l }
      rej := some { level := vget pins.rej l }
      div := some { level := vget pins.div l }
      lastCut := none
      stopAt := none
      running := false
      prevSet := .none }
  else x

/-- R76: a furnace's input where its tracking starts, if it does. -/
def FurnaceInput.tracking (x : FurnaceInput) (starts : Bool) (pins : Pins) (f : Fin 4) : FurnaceInput :=
  if starts then { x with rev := some { level := vget pins.rev f } } else x

theorem State.foldl_startLine (l : List (Fin 8)) (v : Vector LineInput 8) :
    l.foldl (fun t l => if t.lineTracked l then t.startLine l else t) { s with lineInputs := v } =
      { s with lineInputs := l.foldl (fun v i => vset v i ((vget v i).tracking (s.lineTracked i) s.pins i)) v } := by
  induction l generalizing v with
  | nil => rfl
  | cons i l ih =>
    rw [List.foldl_cons, List.foldl_cons, ← ih]
    congr 1
    show (if s.lineTracked i then State.startLine { s with lineInputs := v } i else { s with lineInputs := v }) = _
    unfold LineInput.tracking
    split
    · rfl
    · rw [vset_vget]

theorem State.foldl_startFurnace (l : List (Fin 4)) (v : Vector FurnaceInput 4) :
    l.foldl (fun t f => if t.furnaceTracked f then t.startFurnace f else t) { s with furnaceInputs := v } =
      { s with furnaceInputs := l.foldl (fun v i => vset v i ((vget v i).tracking (s.furnaceTracked i) s.pins i)) v } := by
  induction l generalizing v with
  | nil => rfl
  | cons i l ih =>
    rw [List.foldl_cons, List.foldl_cons, ← ih]
    congr 1
    show (if s.furnaceTracked i then State.startFurnace { s with furnaceInputs := v } i else { s with furnaceInputs := v }) = _
    unfold FurnaceInput.tracking
    split
    · rfl
    · rw [vset_vget]

/-- R76, R91: tracking starts on every assigned line and defined furnace outside PASS. -/
theorem State.startTracking_eq : s.startTracking = { s with
    lineInputs := vgen fun l => (s.lineInput l).tracking (s.lineTracked l) s.pins l
    furnaceInputs := vgen fun f => (s.furnaceInput f).tracking (s.furnaceTracked f) s.pins f } := by
  have lines (t : State) : (List.finRange 8).foldl (fun t l => if t.lineTracked l then t.startLine l else t) t = { t with
      lineInputs := vgen fun l => (t.lineInput l).tracking (t.lineTracked l) t.pins l } := by
    have entries := foldl_vset_finRange (fun l (x : LineInput) => x.tracking (t.lineTracked l) t.pins l) t.lineInputs
    have started := t.foldl_startLine (List.finRange 8) t.lineInputs
    rw [entries] at started
    exact started
  have furnaces (t : State) : (List.finRange 4).foldl (fun t f => if t.furnaceTracked f then t.startFurnace f else t) t =
      { t with furnaceInputs := vgen fun f => (t.furnaceInput f).tracking (t.furnaceTracked f) t.pins f } := by
    have entries := foldl_vset_finRange (fun f (x : FurnaceInput) => x.tracking (t.furnaceTracked f) t.pins f) t.furnaceInputs
    have started := t.foldl_startFurnace (List.finRange 4) t.furnaceInputs
    rw [entries] at started
    exact started
  unfold State.startTracking
  rw [lines, furnaces]
  rfl

/-! ### runa and hlta (R15, R16, R45) -/

variable {s}

/-- R15, R45: RUN entered in sound storage. -/
theorem State.enterRun_of_sound (sound : s.sound) : s.enterRun =
    let joined (b : LiveBase) (a : Account) : LiveBase := { b with
      held := vgen fun k => vget b.held k || vget (s.silentFor a) k
      start := if s.run = .idle then s.stamp else b.start }
    { s with
      run := .run
      furnaceLive := vgen fun f =>
        if (s.furnaceCfg f).defined then { s.fLive f with base := joined (s.fLive f).base (.furnace f) } else s.fLive f
      lineLive := vgen fun l =>
        if s.assigned l then { s.lLive l with base := joined (s.lLive l).base (.line l) } else s.lLive l } := by
  have start (b : LiveBase) : (if s.run = .idle then some s.stamp else none).getD b.start =
      if s.run = .idle then s.stamp else b.start := by
    split <;> rfl
  unfold State.enterRun
  rw [touchAll_of_sound sound]
  simp only [LiveBase.entered, start, sound.1, List.filter_nil]
  rfl

theorem State.anyDefined_eq_true_iff : s.anyDefined = true ↔ ∃ f, (s.furnaceCfg f).defined = true := by
  simp [State.anyDefined]

theorem State.anyDefined_eq_false_iff : s.anyDefined = false ↔ ∀ f, (s.furnaceCfg f).defined = false := by
  simp [State.anyDefined]

theorem takeRuna_of_enters (h : s.run = .idle ∨ s.run = .halt) (defined : s.anyDefined = true) :
    takeRuna [] s = (⟨.done, []⟩, s.enterRun) := by
  rw [takeRuna, fields_nil]
  rcases h with h | h
  · simp only [h, defined, if_true]
    rfl
  · simp only [h, defined, if_true]
    rfl

theorem takeRuna_of_refused (h : s.run = .pass ∨ s.run ≠ .run ∧ s.anyDefined = false) :
    takeRuna [] s = (⟨.state, []⟩, s) := by
  rw [takeRuna, fields_nil]
  dsimp only
  split
  · rfl
  · next run => simp [run] at h
  · next pass _ =>
    obtain ⟨-, undefined⟩ := h.resolve_left pass
    rw [undefined]
    rfl

theorem takeRuna_of_run (h : s.run = .run) : takeRuna [] s = (⟨.done, []⟩, s) := by
  rw [takeRuna, fields_nil]
  simp only [h]
  rfl

theorem takeHlta_eq (s : State) : takeHlta [] s =
    if s.run = .run then (⟨.done, []⟩, { s with run := .halt }) else (⟨.state, []⟩, s) := by
  rw [takeHlta, fields_nil]
  rfl

/-! ### clra and isol (R17 to R19) -/

/-- R18: what the accounting clear writes, among the items of protected storage. -/
theorem State.clearWrites_eq (s : State) (it : Item) : (!s.clearWrites it) =
    match it with
    | .stream k => !s.enabled k
    | .config _ => true
    | _ => false := by
  cases it with
  | stream k => rfl
  | config a => rfl
  | live a => rfl
  | closing a => rfl
  | queue i => rfl

/-- R18, R91: the state after the accounting clear, in IDLE or PASS. -/
theorem State.clearAccounting_eq (s : State) {r : RunState} (h : r = .idle ∨ r = .pass) : s.clearAccounting r = { s with
    run := r
    furnaceLive := Vector.replicate 4 {}
    lineLive := Vector.replicate 8 {}
    groups := Vector.replicate 4 { closing := none, deferred := false, period := 1 }
    streams := vgen fun k => (s.stream k).map fun st =>
      if st.live.state = .off then st else { st with live := { state := .wait } }
    heard := []
    records := []
    lost := 0
    snapshot := none
    furnaceTotals := Vector.replicate 4 {}
    lineTotals := Vector.replicate 8 {}
    lineInputs := vgen fun l =>
      if r = .idle ∧ s.assigned l then
        { cut := some { level := vget s.pins.cut l }, rej := some { level := vget s.pins.rej l }
          div := some { level := vget s.pins.div l } }
      else {}
    furnaceInputs := vgen fun f =>
      if r = .idle ∧ (s.furnaceCfg f).defined then { rev := some { level := vget s.pins.rev f } } else {}
    attention := { s.attention with
      pending := Vector.replicate 7 false
      inService := Vector.replicate 7 false
      strm := Vector.replicate 48 {}
      ratoFurnaces := Vector.replicate 4 false
      ratoLines := Vector.replicate 8 false
      pcls := Vector.replicate 4 false
      lastAlerted := none }
    check := { s.check with armed := s.check.armed.filter fun j =>
      match j.item with
      | .queue _ => false
      | _ => true }
    latent := s.latent.filter fun p =>
      match p.1 with
      | .stream k => !s.enabled k
      | .config _ => true
      | _ => false } := by
  have streams : (s.streams.map fun x => x.map Stream.cleared) = vgen fun k => (s.stream k).map fun st =>
      if st.live.state = .off then st else { st with live := { state := .wait } } :=
    vec_ext fun k => by
      rw [vget_map, vget_vgen]
      rfl
  have armed : (fun j : Injection => !j.onQueue) = fun j => match j.item with
      | .queue _ => false
      | _ => true := by
    funext j
    unfold Injection.onQueue
    cases j.item <;> rfl
  have latent : (fun p : Item × Nat => !s.clearWrites p.1) = fun p => match p.1 with
      | .stream k => !s.enabled k
      | .config _ => true
      | _ => false := funext fun p => s.clearWrites_eq p.1
  have outside : (r ≠ .pass) = (r = .idle) := by
    rcases h with rfl | rfl <;> simp
  have tracked (b : Bool) : (b && decide (r ≠ .pass)) = true ↔ r = .idle ∧ b = true := by
    simp only [outside, Bool.and_eq_true, decide_eq_true_eq, and_comm]
  have line (l : Fin 8) : LineInput.tracking (vget (Vector.replicate 8 {}) l) (s.assigned l && decide (r ≠ .pass)) s.pins l =
      if r = .idle ∧ s.assigned l then
        { cut := some { level := vget s.pins.cut l }, rej := some { level := vget s.pins.rej l }
          div := some { level := vget s.pins.div l } }
      else {} := by
    simp only [LineInput.tracking, tracked, vget_replicate]
  have furnace (f : Fin 4) :
      FurnaceInput.tracking (vget (Vector.replicate 4 {}) f) ((s.furnaceCfg f).defined && decide (r ≠ .pass)) s.pins f =
      if r = .idle ∧ (s.furnaceCfg f).defined then { rev := some { level := vget s.pins.rev f } } else {} := by
    simp only [FurnaceInput.tracking, tracked, vget_replicate]
  unfold State.clearAccounting
  rw [State.startTracking_eq, streams, armed, latent]
  congr 1
  · exact congrArg vgen (funext line)
  · exact congrArg vgen (funext furnace)

theorem takeClra_of_run (h : s.run = .run) : takeClra [] s = (⟨.state, []⟩, s) := by
  rw [takeClra, fields_nil]
  simp only [h]
  rfl

theorem takeClra_of_not_run (h : s.run ≠ .run) :
    takeClra [] s = (⟨.done, []⟩, s.clearAccounting (if s.run = .pass then .pass else .idle)) := by
  rw [takeClra, fields_nil]
  dsimp only
  split
  · next run => exact absurd run h
  · next pass =>
    rw [if_pos pass]
    rfl
  · next other =>
    rw [if_neg other]
    rfl

theorem takeIsol_on (s : State) : takeIsol [1#8] s = (⟨.done, []⟩, s.clearAccounting .pass) := rfl

theorem takeIsol_off (s : State) : takeIsol [0#8] s =
    if s.run = .pass then (⟨.done, []⟩, State.startTracking { s with run := .idle }) else (⟨.done, []⟩, s) := rfl

theorem takeIsol_of_le {b : Byte} (h : 2 ≤ b.toNat) (s : State) : takeIsol [b] s = (⟨.badarg, []⟩, s) := by
  have none : bool? b.toNat = none := by
    cases e : bool? b.toNat with
    | none => rfl
    | some x =>
      have := le_one_of_bool? e
      omega
  rw [takeIsol, fields_one]
  simp only [none]
  rfl

/-! ### The fault record (R152, R153) -/

/-- R153: an index past its region's range, or a region past the last, names no item. -/
theorem injectItem_eq_none (s : State) {region index : Byte}
    (h : 4 < region.toNat ∨ (region = 0#8 ∧ 48 ≤ index.toNat) ∨
      (1 ≤ region.toNat ∧ region.toNat ≤ 3 ∧ 12 ≤ index.toNat) ∨ (region = 4#8 ∧ s.records.length ≤ index.toNat)) :
    injectItem s region.toNat index.toNat = none := by
  simp only [← BitVec.toNat_inj, BitVec.toNat_ofNat] at h
  unfold injectItem
  split
  · rw [fin?_of_le (by omega)]
    rfl
  · rw [account?_of_le (by omega)]
    rfl
  · rw [account?_of_le (by omega)]
    rfl
  · rw [account?_of_le (by omega)]
    rfl
  · rw [if_neg (by omega)]
  · rfl

/-- R153: an index within its region's range names its item. -/
theorem injectItem_eq_some (s : State) {region index : Byte} {item : Item}
    (h : (∃ k : Fin 48, item = .stream k ∧ region = 0#8 ∧ index.toNat = k.val) ∨
      (∃ a : Account, item = .config a ∧ region = 1#8 ∧ index.toNat = a.number) ∨
      (∃ a : Account, item = .live a ∧ region = 2#8 ∧ index.toNat = a.number) ∨
      (∃ a : Account, item = .closing a ∧ region = 3#8 ∧ index.toNat = a.number) ∨
      (item = .queue index.toNat ∧ region = 4#8 ∧ index.toNat < s.records.length)) :
    injectItem s region.toNat index.toNat = some item := by
  rcases h with ⟨k, rfl, rfl, e⟩ | ⟨a, rfl, rfl, e⟩ | ⟨a, rfl, rfl, e⟩ | ⟨a, rfl, rfl, e⟩ | ⟨rfl, rfl, room⟩
  · show (fin? 48 index.toNat).map Item.stream = _
    rw [fin?_of_eq k e.symm]
    rfl
  · show (account? index.toNat).map Item.config = _
    rw [e, account?_number]
    rfl
  · show (account? index.toNat).map Item.live = _
    rw [e, account?_number]
    rfl
  · show (account? index.toNat).map Item.closing = _
    rw [e, account?_number]
    rfl
  · exact if_pos room

theorem takeInjf_of_none {region index kind : Byte} (h : injectItem s region.toNat index.toNat = none) :
    takeInjf [region, index, kind] s = (⟨.badarg, []⟩, s) := by
  rw [takeInjf, fields_three]
  simp only [h]
  rfl

theorem takeInjf_of_kind {region index kind : Byte} (h : kind ≠ 1#8 ∧ kind ≠ 2#8) :
    takeInjf [region, index, kind] s = (⟨.badarg, []⟩, s) := by
  have bad : ¬(kind.toNat = 1 ∨ kind.toNat = 2) := by
    obtain ⟨one, two⟩ := h
    bv_omega
  rw [takeInjf, fields_three]
  dsimp only
  split
  · rw [if_neg bad]
    rfl
  · rfl

theorem takeInjf_of_item {region index kind : Byte} {item : Item}
    (h : injectItem s region.toNat index.toNat = some item) (k : kind = 1#8 ∨ kind = 2#8) :
    takeInjf [region, index, kind] s = (⟨.done, []⟩, { s with
      check := { s.check with armed := some { item := item, double := kind == 2#8 } } }) := by
  rw [takeInjf, fields_three]
  simp only [h]
  rcases k with rfl | rfl <;> rfl

end Sys2Proof.Machine

open Sys2Proof Sys2Proof.Machine

/-- Settles O20: runa by the run state and the furnaces, in sound storage, and hlta by the run state. -/
theorem runStateCommands : Obligations.RunStateCommands := by
  intro src tag s free sound joined
  refine ⟨fun enters defined => ?_, fun refused => ?_, fun run => next_taken free rfl (takeRuna_of_run run), ?_⟩
  · have entered := takeRuna_of_enters (s := s.reserveSlot) enters (State.anyDefined_eq_true_iff.mpr defined)
    exact next_taken free rfl (entered.trans (by rw [State.enterRun_of_sound (sound_reserveSlot sound)]; rfl))
  · exact next_taken free rfl (takeRuna_of_refused (s := s.reserveSlot)
      (refused.imp_right fun ⟨still, undefined⟩ => ⟨still, State.anyDefined_eq_false_iff.mpr undefined⟩))
  · have work := takeHlta_eq s.reserveSlot
    split
    · next run => exact next_taken free rfl (work.trans (if_pos run))
    · next other => exact next_taken free rfl (work.trans (if_neg other))

/-- Settles O21: both commands make the same clear, by the run state it leaves. -/
theorem accountingClear : Obligations.AccountingClear := by
  intro src tag s free
  refine ⟨fun c cmd r cases => ?_, fun run => next_taken free rfl (takeClra_of_run (s := s.reserveSlot) run)⟩
  rcases cases with ⟨rfl, rfl, still, rfl⟩ | ⟨rfl, rfl, rfl⟩
  · refine next_taken free rfl ((takeClra_of_not_run (s := s.reserveSlot) still).trans (congrArg (Prod.mk _) ?_))
    exact s.reserveSlot.clearAccounting_eq (by split <;> simp)
  · refine next_taken free rfl ((takeIsol_on s.reserveSlot).trans (congrArg (Prod.mk _) ?_))
    exact s.reserveSlot.clearAccounting_eq (.inr rfl)

/-- Settles O22: isol off by the run state; tracking starts from the pins' levels. -/
theorem isolateOff : Obligations.IsolateOff := by
  intro src tag s free
  refine ⟨fun pass => ?_, fun other => next_taken free rfl ((takeIsol_off s.reserveSlot).trans (if_neg other)),
    fun b past => next_taken free (packFields_one b []) (takeIsol_of_le past _)⟩
  have row : exec (.isol src tag 0#8) s = _ :=
    next_taken free (packFields_one 0#8 []) ((takeIsol_off s.reserveSlot).trans (if_pos pass))
  rw [State.startTracking_eq] at row
  obtain ⟨a, f, p, frame⟩ := s.taken_frame _ _ _
  refine ⟨_, row.trans (congrArg _ frame), ⟨_, rfl, rfl, rfl⟩, rfl, fun l assigned => ?_, fun f defined => ?_,
    rfl, rfl, rfl, rfl, rfl, rfl, rfl, rfl, rfl⟩
  · have tracked : State.lineTracked { s.reserveSlot with run := .idle } l = true :=
      (Bool.and_true _).trans assigned
    simp only [State.lineInput, vget_vgen]
    rw [LineInput.tracking, if_pos tracked]
    exact ⟨rfl, rfl, rfl, rfl⟩
  · have tracked : State.furnaceTracked { s.reserveSlot with run := .idle } f = true :=
      (Bool.and_true _).trans defined
    simp only [State.furnaceInput, vget_vgen]
    rw [FurnaceInput.tracking, if_pos tracked]
    rfl

/-- Settles O53: injf by the item its region and index name, and by its kind. -/
theorem faultRecordClearsAndInjectionsArm : Obligations.FaultRecordClearsAndInjectionsArm := by
  intro src tag s free
  refine ⟨next_taken free rfl rfl, fun region index kind => ⟨fun bad => ?_, fun item armed names => ?_⟩⟩
  · refine next_taken free (by simp) ?_
    rw [runCommand_injf]
    rcases bad with region | kind | stream | account | record
    · exact takeInjf_of_none (injectItem_eq_none _ (.inl region))
    · exact takeInjf_of_kind kind
    · exact takeInjf_of_none (injectItem_eq_none _ (.inr (.inl stream)))
    · exact takeInjf_of_none (injectItem_eq_none _ (.inr (.inr (.inl account))))
    · exact takeInjf_of_none (injectItem_eq_none _ (.inr (.inr (.inr record))))
  · exact next_taken free (by simp) (takeInjf_of_item (injectItem_eq_some _ names) armed)
end

section
/-! PROOFS. What a read finds of an injection, and what an uncorrectable fault does (R145 to R150, R154). -/

namespace Sys2Proof.Machine

set_option Elab.async false

/-! ### The owner's work at an uncorrectable fault (R147 to R150) -/

section
variable (s : State)

theorem State.check_ownerFault (it : Item) : (s.ownerFault it).check = { s.check with
    furnaceMarks := vgen fun f => vget s.check.furnaceMarks f || decide (it = .config (.furnace f))
    lineMarks := vgen fun l => vget s.check.lineMarks l || decide (it = .config (.line l)) } := by
  have unmarked (h : ∀ a, it ≠ .config a) : s.check = { s.check with
      furnaceMarks := vgen fun f => vget s.check.furnaceMarks f || decide (it = .config (.furnace f))
      lineMarks := vgen fun l => vget s.check.lineMarks l || decide (it = .config (.line l)) } := by
    have furnaces : (vgen fun f => vget s.check.furnaceMarks f || decide (it = .config (.furnace f))) = s.check.furnaceMarks :=
      vec_ext fun f => by simp [h]
    have lines : (vgen fun l => vget s.check.lineMarks l || decide (it = .config (.line l))) = s.check.lineMarks :=
      vec_ext fun l => by simp [h]
    rw [furnaces, lines]
  cases it with
  | stream k => exact unmarked nofun
  | config a =>
    cases a with
    | furnace g =>
      have furnaces : (vgen fun f => vget s.check.furnaceMarks f || decide (Item.config (.furnace g) = .config (.furnace f))) =
          vset s.check.furnaceMarks g true := vec_ext fun f => by
        rw [vget_vset, vget_vgen]
        by_cases e : g = f <;> simp [e]
      have lines : (vgen fun l => vget s.check.lineMarks l || decide (Item.config (.furnace g) = .config (.line l))) =
          s.check.lineMarks := vec_ext fun l => by simp
      rw [furnaces, lines]
      rfl
    | line m =>
      have furnaces : (vgen fun f => vget s.check.furnaceMarks f || decide (Item.config (.line m) = .config (.furnace f))) =
          s.check.furnaceMarks := vec_ext fun f => by simp
      have lines : (vgen fun l => vget s.check.lineMarks l || decide (Item.config (.line m) = .config (.line l))) =
          vset s.check.lineMarks m true := vec_ext fun l => by
        rw [vget_vset, vget_vgen]
        by_cases e : m = l <;> simp [e]
      rw [furnaces, lines]
      rfl
  | live a =>
    refine Eq.trans ?_ (unmarked nofun)
    dsimp only [State.ownerFault]
    split <;> cases a <;> rfl
  | closing a =>
    refine Eq.trans ?_ (unmarked nofun)
    cases a <;> rfl
  | queue i => exact unmarked nofun

variable {it : Item}

theorem State.falt_ownerFault (h : s.attention.isPending .falt = true) :
    (s.ownerFault it).attention.isPending .falt = true := by
  cases it with
  | stream k => exact (vget_vset_other _ (by decide) _).trans h
  | config a => cases a <;> exact h
  | live a =>
    dsimp only [State.ownerFault]
    split <;> cases a <;> exact h
  | closing a => cases a <;> exact h
  | queue i => exact h

theorem State.strm_ownerFault (k : Fin 48) : (s.ownerFault (.stream k)).stream k = none ∧
    (s.ownerFault (.stream k)).attention.isPending .strm = true ∧
    (vget (s.ownerFault (.stream k)).attention.strm k).fault = true :=
  ⟨vget_vset_same _ _ _, vget_vset_same _ _ _, congrArg StreamCauses.fault (vget_vset_same _ _ _)⟩

theorem State.furnaceCfg_ownerFault {f : Fin 4} (h : it ≠ .config (.furnace f)) :
    (s.ownerFault it).furnaceCfg f = s.furnaceCfg f := by
  cases it with
  | stream k => rfl
  | config a =>
    cases a with
    | furnace g => exact s.furnaceCfg_setFurnaceCfg_other (fun e => h (by rw [e])) _
    | line m => rfl
  | live a =>
    dsimp only [State.ownerFault]
    split <;> cases a <;> rfl
  | closing a => cases a <;> rfl
  | queue i => rfl

theorem State.line_ownerFault {l : Fin 8} (h : it ≠ .config (.line l)) :
    (s.ownerFault it).lineCfg l = s.lineCfg l ∧ (s.ownerFault it).job l = s.job l := by
  cases it with
  | stream k => exact ⟨rfl, rfl⟩
  | config a =>
    cases a with
    | furnace g => exact ⟨rfl, rfl⟩
    | line m =>
      have other : m ≠ l := fun e => h (by rw [e])
      exact ⟨s.lineCfg_setLineCfg_other other _, State.job_setJob_other _ other _⟩
  | live a =>
    dsimp only [State.ownerFault]
    split <;> cases a <;> exact ⟨rfl, rfl⟩
  | closing a => cases a <;> exact ⟨rfl, rfl⟩
  | queue i => exact ⟨rfl, rfl⟩

theorem State.fLive_ownerFault {f : Fin 4} (h : it ≠ .live (.furnace f)) : (s.ownerFault it).fLive f = s.fLive f := by
  cases it with
  | stream k => rfl
  | config a => cases a <;> rfl
  | live a =>
    dsimp only [State.ownerFault]
    cases a with
    | furnace g =>
      have other : g ≠ f := fun e => h (by rw [e])
      split
      · exact s.fLive_setFLive_other other _
      · exact s.fLive_setFLive_other other _
    | line m => split <;> rfl
  | closing a => cases a <;> rfl
  | queue i => rfl

theorem State.lLive_ownerFault {l : Fin 8} (h : it ≠ .live (.line l)) : (s.ownerFault it).lLive l = s.lLive l := by
  cases it with
  | stream k => rfl
  | config a => cases a <;> rfl
  | live a =>
    dsimp only [State.ownerFault]
    cases a with
    | furnace g => split <;> rfl
    | line m =>
      have other : m ≠ l := fun e => h (by rw [e])
      split
      · exact s.lLive_setLLive_other other _
      · exact s.lLive_setLLive_other other _
  | closing a => cases a <;> rfl
  | queue i => rfl

/-- R149: in RUN and HALT the live set is SUSPECT. -/
theorem State.suspect_ownerFault (h : s.run = .run ∨ s.run = .halt) (a : Account) :
    ((s.ownerFault (.live a)).liveBase a).flags.suspect = true := by
  dsimp only [State.ownerFault]
  rw [if_pos h]
  cases a with
  | furnace f =>
    simp only [State.liveBase, State.fLive_setFLive_same]
    rfl
  | line l =>
    simp only [State.liveBase, State.lLive_setLLive_same]
    rfl

theorem RunState.not_closing {r : RunState} (h : r = .idle ∨ r = .pass) : ¬(r = .run ∨ r = .halt) := by
  rcases h with rfl | rfl <;> simp

/-- R149: in IDLE and PASS the live set is zero. -/
theorem State.fLive_ownerFault_of_idle (h : s.run = .idle ∨ s.run = .pass) (f : Fin 4) :
    (s.ownerFault (.live (.furnace f))).fLive f = {} := by
  dsimp only [State.ownerFault]
  rw [if_neg (RunState.not_closing h)]
  exact s.fLive_setFLive_same f {}

theorem State.lLive_ownerFault_of_idle (h : s.run = .idle ∨ s.run = .pass) (l : Fin 8) :
    (s.ownerFault (.live (.line l))).lLive l = {} := by
  dsimp only [State.ownerFault]
  rw [if_neg (RunState.not_closing h)]
  exact s.lLive_setLLive_same l {}

/-- R149: the furnace's figures in a closing set. -/
theorem State.closingFurnace_ownerFault {g : Fin 4} {c : ClosingSet} (h : (s.group g).closing = some c) :
    (s.ownerFault (.closing (.furnace g))).group g =
      { s.group g with closing := some { c with furnace := c.furnace.sanitized.suspected } } := by
  refine (s.group_setGroup_same g _).trans ?_
  rw [h]
  rfl

/-- R149: a line's figures in a closing set. -/
theorem State.closingLine_ownerFault {g : Fin 4} {c : ClosingSet} (l : Fin 8) (h : (s.group g).closing = some c) :
    (s.ownerFault (.closing (.line l))).group g = { s.group g with closing := some { c with
      lines := c.lines.map fun x => if x.line = l then { x with live := x.live.sanitized.suspected } else x } } := by
  refine (vget_vgen _ g).trans ?_
  rw [h]
  rfl

/-- R149: a group without a close, or of another item, stays. -/
theorem State.group_ownerFault {g : Fin 4} (h : (s.group g).closing = none ∨
    (∀ l, it ≠ .closing (.line l)) ∧ it ≠ .closing (.furnace g)) : (s.ownerFault it).group g = s.group g := by
  cases it with
  | stream k => rfl
  | config a => cases a <;> rfl
  | live a =>
    dsimp only [State.ownerFault]
    split <;> cases a <;> rfl
  | closing a =>
    have without {a : Account} (none : (s.group g).closing = none) :
        { s.group g with closing := (s.group g).closing.map fun c => c.faulted a } = s.group g := by
      cases e : s.group g
      rw [e] at none
      simp_all
    cases a with
    | furnace f =>
      rcases h with none | ⟨-, other⟩
      · by_cases e : f = g
        · subst e
          exact (s.group_setGroup_same f _).trans (without none)
        · exact s.group_setGroup_other e _
      · exact s.group_setGroup_other (fun e => other (by rw [e])) _
    | line m =>
      rcases h with none | ⟨other, -⟩
      · exact (vget_vgen _ g).trans (without none)
      · exact absurd rfl (other m)
  | queue i => rfl

theorem State.records_ownerFault : (s.ownerFault it).records =
    match it with
    | .queue i => s.records.modify i GroupRecord.faulted
    | _ => s.records := by
  cases it with
  | stream k => rfl
  | config a => cases a <;> rfl
  | live a =>
    dsimp only [State.ownerFault]
    split <;> cases a <;> rfl
  | closing a => cases a <;> rfl
  | queue i => rfl

end

/-! ### Reads of an injected item (R154) -/

section
variable {s : State} {it : Item}

theorem State.touch_of_clean (h : s.errorsIn it = 0) : s.touch it = s := if_pos h

theorem State.errorsIn_of_armed (latent : s.latent = []) {double : Bool} (armed : s.check.armed = some ⟨it, double⟩) :
    s.errorsIn it = if double then 2 else 1 := by
  simp [State.errorsIn, State.latentErrors, State.injectedErrors, latent, armed]

theorem State.errorsIn_of_other (latent : s.latent = [])
    (h : s.check.armed = none ∨ ∃ j, s.check.armed = some j ∧ j.item ≠ it) : s.errorsIn it = 0 := by
  rcases h with armed | ⟨j, armed, other⟩
  · simp [State.errorsIn, State.latentErrors, State.injectedErrors, latent, armed]
  · simp [State.errorsIn, State.latentErrors, State.injectedErrors, latent, armed, other]

/-- R154: the read takes the injection. -/
theorem State.disarmed_of_armed (latent : s.latent = []) {double : Bool} (armed : s.check.armed = some ⟨it, double⟩) :
    (s.disarmed it).rewritten it = { s with check := { s.check with armed := none } } := by
  simp [State.disarmed, State.rewritten, latent, armed]

/-- R145: one error is corrected and counted. -/
theorem State.touch_of_single (latent : s.latent = []) (armed : s.check.armed = some ⟨it, false⟩) : s.touch it =
    { s with check := { s.check with armed := none, corrected := min 65535 (s.check.corrected + 1) } } := by
  unfold State.touch
  rw [s.errorsIn_of_armed latent armed, s.disarmed_of_armed latent armed]
  exact congrArg (fun n => { s with check := { s.check with armed := none, corrected := n } }) (satAdd_eq _ _ _)

/-- R146: the owner works on the state with the fault recorded. -/
theorem State.touch_of_double (latent : s.latent = []) (armed : s.check.armed = some ⟨it, true⟩) : s.touch it =
    (State.recordFault { s with check := { s.check with armed := none } } it).ownerFault it := by
  unfold State.touch
  rw [s.errorsIn_of_armed latent armed, s.disarmed_of_armed latent armed]
  rfl

end

theorem GroupRecord.pieces_faulted (r : GroupRecord) : r.faulted.pieces = r.pieces := by
  simp [GroupRecord.pieces, GroupRecord.faulted]

end Sys2Proof.Machine

open Sys2Proof Sys2Proof.Machine

/-- Settles O54: a read by the errors it finds; for two, the fault recorded and then the owner's work item by item. -/
theorem injectedErrorsAreFound : Obligations.InjectedErrorsAreFound := by
  intro s item latent
  refine ⟨fun armed => State.touch_of_clean (State.errorsIn_of_other latent (.inl armed)),
    fun j armed other => State.touch_of_clean (State.errorsIn_of_other latent (.inr ⟨j, armed, other⟩)),
    State.touch_of_single latent, fun armed => ?_⟩
  intro t slot
  have frame := touch_frame s item
  have run : t.run = s.run := (congrArg State.run frame :)
  have clock : t.clock = s.clock := (congrArg State.clock frame :)
  have plant : t.plant = s.plant := (congrArg State.plant frame :)
  have field : t.field = s.field := (congrArg State.field frame :)
  have streams (k : Fin 48) (h : item ≠ .stream k) : t.stream k = s.stream k := s.stream_touch h
  have work : t = _ := State.touch_of_double latent armed
  clear_value t
  subst work
  generalize recorded : State.recordFault { s with check := { s.check with armed := none } } item = u at *
  have check := u.check_ownerFault item
  have falt : u.attention.isPending .falt = true := by
    rw [← recorded]
    exact vget_vset_same _ _ _
  have sameRun : u.run = s.run := by
    rw [← recorded]
    rfl
  have sameRecords : u.records = s.records := by
    rw [← recorded]
    rfl
  have records := u.records_ownerFault (it := item)
  rw [sameRecords] at records
  refine ⟨by rw [check]; subst recorded; rfl, ?_, by rw [check]; subst recorded; rfl, ?_, by rw [check]; subst recorded; rfl,
    u.falt_ownerFault falt, fun k e => ?_, streams,
    fun f => ?_, fun l => ?_, fun f h => ?_, fun l h => ?_, fun f h => ?_, fun l h => ?_, fun a e closes => ?_,
    fun f e idle => ?_, fun l e idle => ?_, fun g c e closing => ?_, fun l g c e closing => ?_, fun g h => ?_, fun i h => ?_,
    fun i e h => ?_, ?_, run, clock, plant, field⟩
  · rw [check]
    subst recorded
    cases e : s.check.first with
    | none => simp only [State.recordFault, State.raise, e]; rfl
    | some x => simp only [State.recordFault, State.raise, e]; rfl
  · rw [check]
    subst recorded
    exact satAdd_eq _ _ _
  · subst e
    exact u.strm_ownerFault k
  · rw [check]
    subst recorded
    exact vget_vgen _ f
  · rw [check]
    subst recorded
    exact vget_vgen _ l
  · rw [u.furnaceCfg_ownerFault h]
    subst recorded
    rfl
  · obtain ⟨cfg, job⟩ := u.line_ownerFault h
    rw [cfg, job]
    subst recorded
    exact ⟨rfl, rfl⟩
  · rw [u.fLive_ownerFault h]
    subst recorded
    rfl
  · rw [u.lLive_ownerFault h]
    subst recorded
    rfl
  · subst e
    exact u.suspect_ownerFault (by rwa [sameRun]) a
  · subst e
    exact u.fLive_ownerFault_of_idle (by rwa [sameRun]) f
  · subst e
    exact u.lLive_ownerFault_of_idle (by rwa [sameRun]) l
  · subst e recorded
    exact ⟨_, State.closingFurnace_ownerFault _ closing, rfl, rfl⟩
  · subst e recorded
    refine ⟨_, State.closingLine_ownerFault _ l closing, List.length_map _, fun i x at_i =>
      ⟨if x.line = l then { x with live := x.live.sanitized.suspected } else x, ?_, ?_⟩⟩
    · rw [List.getElem?_map, at_i]
      rfl
    · by_cases e : x.line = l
      · rw [if_pos e]
        exact ⟨rfl, rfl, fun _ => rfl, fun other => absurd e other⟩
      · rw [if_neg e]
        exact ⟨rfl, rfl, fun same => absurd same e, fun _ => rfl⟩
  · subst recorded
    exact State.group_ownerFault _ h
  · rw [records]
    cases item with
    | queue j => exact List.getElem?_modify_ne _ _ (fun same : j = i => h (congrArg Item.queue same))
    | _ => rfl
  · rw [records]
    subst e
    refine ⟨s.records[i].faulted, ?_, rfl, rfl, rfl, GroupRecord.pieces_faulted _⟩
    exact (List.getElem?_modify_eq _ _ _).trans (by rw [List.getElem?_eq_getElem h]; rfl)
  · rw [records]
    cases item with
    | queue j => exact List.length_modify _ _ _
    | _ => rfl
end

section
/-! PROOFS. The loads of job records and the enabling of streams (R8, R25, R26). -/

namespace Sys2Proof.Machine

set_option Elab.async false

/-! ### Fields of commands within their widths (R194) -/

theorem byte_fits (b : Byte) : b.toNat < 256 ^ 1 := b.isLt
theorem word_fits (b : BitVec 16) : b.toNat < 256 ^ 2 := b.isLt
theorem triple_fits (b : BitVec 24) : b.toNat < 256 ^ 3 := b.isLt
theorem long_fits (b : BitVec 32) : b.toNat < 256 ^ 4 := b.isLt

section
variable {s : State}

/-! ### jobl (R8) -/

theorem joblArgs_eq (l gobs : Byte) (weight : BitVec 16) :
    packFields [(1, l.toNat), (1, gobs.toNat), (2, weight.toNat)] = [l, gobs] ++ be 2 weight.toNat := by
  simp [packFields]

theorem takeJobl_eq (s : State) (sound : s.sound) (l : Fin 8) (gobs : Byte) (weight : BitVec 16) :
    takeJobl ([BitVec.ofNat 8 l.val, gobs] ++ be 2 weight.toNat) s =
      if 1 ≤ gobs.toNat ∧ gobs.toNat ≤ 4 ∧ 1 ≤ weight.toNat then
        if weight.toNat < (s.lineCfg l).gobLow ∨ (s.lineCfg l).gobHigh < weight.toNat then refuse .badarg s
        else if !s.assigned l then refuse .state s
        else answer [] ((s.setJob l { gobs := gobs.toNat, weight := weight.toNat }).countJob l)
      else refuse .badarg s := by
  have read := fields_packFields (l := [(1, (BitVec.ofNat 8 l.val).toNat), (1, gobs.toNat), (2, weight.toNat)]) (by
    simp only [List.forall_mem_cons]
    exact ⟨byte_fits _, byte_fits _, word_fits _, by simp⟩)
  unfold takeJobl
  rw [← joblArgs_eq]
  simp only [List.map_cons, List.map_nil] at read
  simp only [read, fin?_ofNat (by decide : 8 ≤ 256), touch_of_sound sound]

/-- R8: a job change counts in RUN only. -/
theorem State.countJob_of_sound (sound : s.sound) (l : Fin 8) : s.countJob l =
    if s.run = .run then s.setLLive l { s.lLive l with jobChanges := min 4294967295 ((s.lLive l).jobChanges + 1) }
    else s := by
  simp only [State.countJob, touch_of_sound sound, bump_eq]

/-! ### sten (R25, R26) -/

theorem touchLoaded_of_sound (sound : s.sound) (k : Fin 48) : s.touchLoaded k = s := by
  unfold State.touchLoaded
  cases s.stream k with
  | none => rfl
  | some st => exact touch_of_sound sound _

theorem takeSten_eq (sound : s.sound) (k : Fin 48) (b : Byte) :
    takeSten [BitVec.ofNat 8 k.val, b] s =
      match bool? b.toNat with
      | none => refuse .badarg s
      | some on =>
        match s.stream k with
        | none => if on then refuse .state s else answer [] s
        | some st =>
          if on then
            if s.targetSuits st.entry.category st.entry.target then
              if st.live.state = .off then
                answer [] ((s.setStreamLive k st { state := .wait, counts := st.live.counts }).unhear st.entry.source
                  st.entry.channel)
              else answer [] s
            else refuse .state s
          else if st.live.state = .off then answer [] s
          else answer [] (s.setStreamLive k st st.live.disabled) := by
  unfold takeSten
  rw [fields_two]
  simp only [fin?_ofNat (by decide : 48 ≤ 256), touchLoaded_of_sound sound]
  cases bool? b.toNat <;> rfl

theorem bool?_of_le {x : Nat} (h : 2 ≤ x) : bool? x = none := by
  match x with
  | x + 2 => rfl

theorem takeSten_of_le {n b : Byte} (h : 48 ≤ n.toNat ∨ 2 ≤ b.toNat) : takeSten [n, b] s = refuse .badarg s := by
  unfold takeSten
  rw [fields_two]
  rcases h with far | far
  · simp only [fin?_of_le far]
  · simp only [bool?_of_le far]
    cases fin? 48 n.toNat <;> rfl

end

end Sys2Proof.Machine

open Sys2Proof Sys2Proof.Machine

/-- Settles O25: the checks in their order, and the loaded record. -/
theorem jobLoads : Obligations.JobLoads := by
  intro src tag l gobs weight s free sound args ok loaded
  have row {r : Reply} {e : State} (h : takeJobl args s.reserveSlot = (r, e)) :
      exec (.jobl src tag (BitVec.ofNat 8 l.val) gobs weight) s = .next (s.taken ⟨src, 0x14#8, tag, args⟩ r e) :=
    next_taken free (joblArgs_eq _ _ _) ((runCommand_jobl _ _ _ _).trans h)
  have eq := takeJobl_eq s.reserveSlot (sound_reserveSlot sound) l gobs weight
  have band : (weight.toNat < (s.reserveSlot.lineCfg l).gobLow ∨ (s.reserveSlot.lineCfg l).gobHigh < weight.toNat) ↔
      ¬((s.lineCfg l).gobLow ≤ weight.toNat ∧ weight.toNat ≤ (s.lineCfg l).gobHigh) := by
    show (weight.toNat < (s.lineCfg l).gobLow ∨ (s.lineCfg l).gobHigh < weight.toNat) ↔ _
    omega
  refine ⟨fun bad => row (eq.trans ?_), fun good unused => row (eq.trans ?_), fun good used => row (eq.trans ?_)⟩
  · by_cases ranges : 1 ≤ gobs.toNat ∧ gobs.toNat ≤ 4 ∧ 1 ≤ weight.toNat
    · rw [if_pos ranges, if_pos (band.mpr fun h => bad ⟨ranges.1, ranges.2.1, ranges.2.2, h.1, h.2⟩)]
      rfl
    · rw [if_neg ranges]
      rfl
  · obtain ⟨g1, g4, w1, low, high⟩ := good
    rw [if_pos ⟨g1, g4, w1⟩, if_neg (fun h => band.mp h ⟨low, high⟩)]
    have asked : (!s.reserveSlot.assigned l) = true := by
      rw [show s.reserveSlot.assigned l = false from unused]
      rfl
    rw [if_pos asked]
    rfl
  · obtain ⟨g1, g4, w1, low, high⟩ := good
    rw [if_pos ⟨g1, g4, w1⟩, if_neg (fun h => band.mp h ⟨low, high⟩)]
    have asked : ¬(!s.reserveSlot.assigned l) = true := by
      rw [show s.reserveSlot.assigned l = true from used]
      decide
    have set : (s.reserveSlot.setJob l { gobs := gobs.toNat, weight := weight.toNat }).sound := sound
    rw [if_neg asked, State.countJob_of_sound set]
    rfl

/-- Settles O27: the cases of the argument, the entry, its target and its state. -/
theorem streamEnables : Obligations.StreamEnables := by
  intro src tag k s free sound cmd
  have row {n b : Byte} {r : Reply} {e : State} (h : takeSten [n, b] s.reserveSlot = (r, e)) :
      exec (.sten src tag n b) s = .next (s.taken ⟨src, 0x22#8, tag, [n, b]⟩ r e) :=
    next_taken free (by simp) ((runCommand_sten _ _ _ _).trans h)
  have eq (b : Byte) := takeSten_eq (sound_reserveSlot sound) k b
  have loaded {o : Option Stream} (h : s.stream k = o) : s.reserveSlot.stream k = o := h
  have on : bool? (1#8 : Byte).toNat = some true := rfl
  have off : bool? (0#8 : Byte).toNat = some false := rfl
  refine ⟨fun st entry state suits => row ((eq _).trans ?_), fun st entry state => row ((eq _).trans ?_),
    fun st entry state suits => row ((eq _).trans ?_), fun st entry state => row ((eq _).trans ?_),
    fun n b far => row (takeSten_of_le far), fun st entry suits => row ((eq _).trans ?_),
    fun entry => ⟨row ((eq _).trans ?_), row ((eq _).trans ?_)⟩⟩
  · have suits' : s.reserveSlot.targetSuits st.entry.category st.entry.target = true := suits
    simp only [on, loaded entry, suits', if_true, state]
    rfl
  · simp only [off, loaded entry, state]
    rfl
  · have suits' : s.reserveSlot.targetSuits st.entry.category st.entry.target = true := suits
    simp only [on, loaded entry, suits', if_true, state]
    rfl
  · simp only [off, loaded entry, state]
    rfl
  · have suits' : s.reserveSlot.targetSuits st.entry.category st.entry.target = false := suits
    simp only [on, loaded entry, suits']
    rfl
  · simp only [on, loaded entry]
    rfl
  · simp only [off, loaded entry]
    rfl
end

section
/-! PROOFS. The load of a stream entry (R22, R23, R48). -/

namespace Sys2Proof.Machine

set_option Elab.async false

/-! ### The entry read back from its bytes (R191, R194) -/

theorem toNat_ofNat_of_lt {w x : Nat} (h : x < 2 ^ w) : (BitVec.ofNat w x).toNat = x :=
  BitVec.toNat_ofNat x w ▸ Nat.mod_eq_of_lt h

theorem Category.code_lt (c : Category) : c.code < 2 ^ 8 := by cases c <;> decide
theorem category?_code (c : Category) : category? c.code = some c := by cases c <;> rfl
theorem Kind.code_lt (c : Kind) : c.code < 2 ^ 8 := by cases c <;> decide
theorem kind?_code (c : Kind) : kind? c.code = some c := by cases c <;> rfl
theorem bitOf_lt (b : Bool) : bitOf b < 2 ^ 8 := by cases b <;> decide
theorem bool?_bitOf (b : Bool) : bool? (bitOf b) = some b := by cases b <;> rfl

theorem FormatSet.mask_lt : (fs : FormatSet) → fs.mask < 16
  | ⟨a, b, c, d⟩ => by cases a <;> cases b <;> cases c <;> cases d <;> decide

theorem formatSetOf_mask : (fs : FormatSet) → formatSetOf (BitVec.ofNat 8 fs.mask) = fs
  | ⟨a, b, c, d⟩ => by cases a <;> cases b <;> cases c <;> cases d <;> decide

/-- The modulus 4,294,967,296 is sent as 0. -/
theorem modulus_sent {m : Nat} (least : 1 ≤ m) (most : m ≤ 4294967296) :
    (if (BitVec.ofNat 32 m).toNat = 0 then 4294967296 else (BitVec.ofNat 32 m).toNat) = m := by
  rw [BitVec.toNat_ofNat]
  rcases Nat.lt_or_eq_of_le most with small | rfl
  · rw [Nat.mod_eq_of_lt small, if_neg (by omega)]
  · rfl

theorem entryOf_sent {e : StreamEntry} (fits : e.Fits) (channel : e.channel ≤ 255) (interval : e.interval ≤ 65535)
    (hold : e.hold ≤ 65535) :
    entryOf e.source.toNat (BitVec.ofNat 8 e.channel).toNat (BitVec.ofNat 8 e.category.code).toNat
      (BitVec.ofNat 8 e.kind.code).toNat (BitVec.ofNat 8 e.target.number).toNat (BitVec.ofNat 8 e.formats.mask).toNat
      (BitVec.ofNat 32 e.modulus).toNat (BitVec.ofNat 32 e.factor).toNat (BitVec.ofNat 24 e.maxRate).toNat
      (BitVec.ofNat 16 e.interval).toNat (BitVec.ofNat 16 e.hold).toNat (BitVec.ofNat 8 (bitOf e.sensitive)).toNat =
    some e := by
  obtain ⟨least, most, factor, rate⟩ := fits
  have mask := e.formats.mask_lt
  have factor' : e.factor < 2 ^ 32 := Nat.lt_succ_of_le factor
  unfold entryOf
  rw [toNat_ofNat_of_lt e.category.code_lt, toNat_ofNat_of_lt e.kind.code_lt, account?_ofNat,
    toNat_ofNat_of_lt (bitOf_lt e.sensitive), category?_code, kind?_code, bool?_bitOf,
    toNat_ofNat_of_lt (show e.formats.mask < 2 ^ 8 by omega), modulus_sent least most, formatSetOf_mask,
    toNat_ofNat_of_lt (show e.channel < 2 ^ 8 by omega), toNat_ofNat_of_lt factor',
    toNat_ofNat_of_lt (show e.maxRate < 2 ^ 24 by omega), toNat_ofNat_of_lt (show e.interval < 2 ^ 16 by omega),
    toNat_ofNat_of_lt (show e.hold < 2 ^ 16 by omega), BitVec.ofNat_toNat]
  simp only [mask, if_true]
  rfl

/-- The argument bytes of the ldst that loads an entry. -/
def StreamEntry.sent (e : StreamEntry) (k : Fin 48) : List (Nat × Nat) :=
  [(1, (BitVec.ofNat 8 k.val).toNat), (1, e.source.toNat), (1, (BitVec.ofNat 8 e.channel).toNat),
    (1, (BitVec.ofNat 8 e.category.code).toNat), (1, (BitVec.ofNat 8 e.kind.code).toNat),
    (1, (BitVec.ofNat 8 e.target.number).toNat), (1, (BitVec.ofNat 8 e.formats.mask).toNat),
    (4, (BitVec.ofNat 32 e.modulus).toNat), (4, (BitVec.ofNat 32 e.factor).toNat),
    (3, (BitVec.ofNat 24 e.maxRate).toNat), (2, (BitVec.ofNat 16 e.interval).toNat),
    (2, (BitVec.ofNat 16 e.hold).toNat), (1, (BitVec.ofNat 8 (bitOf e.sensitive)).toNat)]

theorem exec_ldstOf {s : State} (free : s.free) {src tag : Byte} {k : Fin 48} {e : StreamEntry} {r : Reply} {u : State}
    (h : takeLdst (packFields (e.sent k)) s.reserveSlot = (r, u)) :
    exec (ldstOf src tag k e) s = .next (s.taken ⟨src, 0x20#8, tag, packFields (e.sent k)⟩ r u) :=
  next_taken free rfl ((runCommand_ldst _ _ _ _).trans h)

theorem takeLdst_sent {s : State} (sound : s.sound) (k : Fin 48) {e : StreamEntry} (fits : e.Fits)
    (channel : e.channel ≤ 255) (interval : e.interval ≤ 65535) (hold : e.hold ≤ 65535) :
    takeLdst (packFields (e.sent k)) s =
      if s.entryOk k e then
        if s.enabled k then refuse .state s
        else answer [] ((s.setStream k (some { entry := e })).unhear e.source e.channel)
      else refuse .badarg s := by
  have read := fields_packFields (l := e.sent k) (by
    simp only [StreamEntry.sent, List.forall_mem_cons]
    exact ⟨byte_fits _, byte_fits _, byte_fits _, byte_fits _, byte_fits _, byte_fits _, byte_fits _, long_fits _,
      long_fits _, triple_fits _, word_fits _, word_fits _, byte_fits _, by simp⟩)
  have entry := entryOf_sent fits channel interval hold
  have set : (s.setStream k (some { entry := e })).sound := sound
  generalize packFields (e.sent k) = args at read ⊢
  simp only [StreamEntry.sent, List.map_cons, List.map_nil] at read
  simp only [takeLdst, read, fin?_ofNat (by decide : 48 ≤ 256), entry, touch_of_sound sound, rewritten_of_sound set]

/-! ### The checks (R22) -/

/-- R22: the target of an entry is in use and suits its category. -/
theorem State.targetSuits_iff (s : State) (c : Category) (a : Account) : s.targetSuits c a = true ↔
    (∀ f, a = .furnace f → (s.furnaceCfg f).defined = true) ∧ (∀ l, a = .line l → (s.lineCfg l).furnace ≠ none) ∧
      (c = .charge ∨ c = .cullet → ∃ f, a = .furnace f) ∧ (c = .gobw → ¬∃ f, a = .furnace f) := by
  cases a with
  | furnace f => cases c <;> simp [State.targetSuits, State.accountInUse]
  | line l =>
    have used : s.assigned l = true ↔ (s.lineCfg l).furnace ≠ none := Option.isSome_iff_ne_none
    cases c <;> simp [State.targetSuits, State.accountInUse, used]

theorem State.pairTaken_eq_false_iff (s : State) (k : Fin 48) (src : Byte) (ch : Nat) : s.pairTaken k src ch = false ↔
    ∀ j st, j ≠ k → s.stream j = some st → ¬(st.entry.source = src ∧ st.entry.channel = ch) := by
  refine ⟨fun h j st other entry => State.pairTaken_eq_false h j st entry other, fun h => ?_⟩
  refine List.any_eq_false.mpr fun j _ => ?_
  cases entry : s.stream j with
  | none => exact Bool.false_ne_true
  | some st =>
    intro held
    obtain ⟨other, pair⟩ := of_decide_eq_true held
    exact h j st other entry pair

/-- R22: the formats suit the category, with a factor and a rate where it counts. -/
theorem StreamEntry.formatsSuit_iff {e : StreamEntry} (fits : e.Fits) :
    ((match e.category with
      | .gobw => decide (e.formats = ⟨false, false, false, true⟩)
      | _ => (e.formats.total32 || e.formats.step || e.formats.total16) && !e.formats.value &&
          decide (1 ≤ e.factor ∧ e.factor ≤ cap32 ∧ 1 ≤ e.maxRate ∧ e.maxRate ≤ 16777215)) = true ∧
      (!e.formats.total32 || decide (2 ≤ e.modulus ∧ e.modulus ≤ 4294967296)) = true) ↔
    (e.category = .gobw → e.formats = ⟨false, false, false, true⟩) ∧
      (e.category ≠ .gobw → e.formats.value = false ∧
        (e.formats.total32 = true ∨ e.formats.step = true ∨ e.formats.total16 = true) ∧ 1 ≤ e.factor ∧ 1 ≤ e.maxRate) ∧
      (e.formats.total32 = true → 2 ≤ e.modulus) := by
  obtain ⟨-, most, factor, rate⟩ := fits
  have modulus : (!e.formats.total32 || decide (2 ≤ e.modulus ∧ e.modulus ≤ 4294967296)) = true ↔
      (e.formats.total32 = true → 2 ≤ e.modulus) := by
    cases e.formats.total32 <;> simp [most]
  have counts : ((e.formats.total32 || e.formats.step || e.formats.total16) && !e.formats.value &&
      decide (1 ≤ e.factor ∧ e.factor ≤ cap32 ∧ 1 ≤ e.maxRate ∧ e.maxRate ≤ 16777215)) = true ↔
      e.formats.value = false ∧ (e.formats.total32 = true ∨ e.formats.step = true ∨ e.formats.total16 = true) ∧
        1 ≤ e.factor ∧ 1 ≤ e.maxRate := by
    simp only [Bool.and_eq_true, Bool.or_eq_true, Bool.not_eq_true', decide_eq_true_eq]
    tauto
  rw [modulus]
  cases e.category with
  | gobw => simp
  | _ => simp only [counts]; simp

/-- R22: the checks of an ldst, as the manual lists them. -/
theorem State.entryOk_iff (s : State) (k : Fin 48) {e : StreamEntry} (fits : e.Fits) : s.entryOk k e = true ↔
    (1 ≤ e.source.toNat ∧ e.source.toNat ≤ 254 ∧ e.channel ≤ 15 ∧ 1 ≤ e.interval ∧ e.interval ≤ 3600 ∧ 1 ≤ e.hold ∧
      e.hold ≤ 1440) ∧
    ((∀ f, e.target = .furnace f → (s.furnaceCfg f).defined = true) ∧
      (∀ l, e.target = .line l → (s.lineCfg l).furnace ≠ none) ∧
      (e.category = .charge ∨ e.category = .cullet → ∃ f, e.target = .furnace f) ∧
      (e.category = .gobw → ¬∃ f, e.target = .furnace f)) ∧
    ((e.category = .gobw → e.formats = ⟨false, false, false, true⟩) ∧
      (e.category ≠ .gobw → e.formats.value = false ∧
        (e.formats.total32 = true ∨ e.formats.step = true ∨ e.formats.total16 = true) ∧ 1 ≤ e.factor ∧ 1 ≤ e.maxRate) ∧
      (e.formats.total32 = true → 2 ≤ e.modulus)) ∧
    (e.sensitive = true → (e.category = .energy ∨ e.category = .credit) ∧ ∃ f, e.target = .furnace f) ∧
    3 * e.interval < e.hold * 60 ∧
    ∀ j st, j ≠ k → s.stream j = some st → ¬(st.entry.source = e.source ∧ st.entry.channel = e.channel) := by
  have estimated : e.category.estimated = true ↔ e.category = .energy ∨ e.category = .credit := by
    cases e.category <;> simp [Category.estimated]
  have onFurnace : (match e.target with
      | .furnace _ => true
      | .line _ => false) = true ↔ ∃ f, e.target = .furnace f := by
    cases e.target <;> simp
  have sensitive : (!e.sensitive || (e.category.estimated && match e.target with
      | .furnace _ => true
      | .line _ => false)) = true ↔
      (e.sensitive = true → (e.category = .energy ∨ e.category = .credit) ∧ ∃ f, e.target = .furnace f) := by
    rw [Bool.or_eq_true, Bool.and_eq_true, estimated, onFurnace]
    cases e.sensitive <;> simp
  have free : (!s.pairTaken k e.source e.channel) = true ↔ _ :=
    Bool.not_eq_true' _ ▸ s.pairTaken_eq_false_iff k e.source e.channel
  rw [← StreamEntry.formatsSuit_iff fits, ← s.targetSuits_iff, ← sensitive, ← free]
  simp only [State.entryOk, Bool.and_eq_true, decide_eq_true_eq]
  tauto

end Sys2Proof.Machine

open Sys2Proof Sys2Proof.Machine

/-- Settles O26: the entry reads back from its bytes, and the checks are those of R22. -/
theorem streamLoads : Obligations.StreamLoads := by
  intro src tag k e s free sound fits channel interval hold fs inRange onFurnace suits formatsSuit ok
  have taken := takeLdst_sent (sound_reserveSlot sound) k fits channel interval hold
  have checks : s.reserveSlot.entryOk k e = true ↔ ok := s.reserveSlot.entryOk_iff k fits
  refine ⟨fun bad => ?_, fun good on => ?_, fun good off => ?_⟩
  · have row := exec_ldstOf (src := src) (tag := tag) free (taken.trans (if_neg (mt checks.mp bad)))
    obtain ⟨a, f, p, frame⟩ := s.taken_frame _ _ _
    exact ⟨_, row.trans (congrArg _ frame), ⟨_, rfl, rfl, rfl⟩, rfl, rfl⟩
  · have on' : s.reserveSlot.enabled k = true := on
    have row := exec_ldstOf (src := src) (tag := tag) free (taken.trans ((if_pos (checks.mpr good)).trans (if_pos on')))
    obtain ⟨a, f, p, frame⟩ := s.taken_frame _ _ _
    exact ⟨_, row.trans (congrArg _ frame), ⟨_, rfl, rfl, rfl⟩, rfl, rfl⟩
  · have off' : ¬s.reserveSlot.enabled k = true := by
      rw [show s.reserveSlot.enabled k = false from off]
      decide
    have row := exec_ldstOf (src := src) (tag := tag) free (taken.trans ((if_pos (checks.mpr good)).trans (if_neg off')))
    obtain ⟨a, f, p, frame⟩ := s.taken_frame _ _ _
    exact ⟨_, row.trans (congrArg _ frame), ⟨_, rfl, rfl, rfl⟩, vget_vset_same _ _ _, fun j other =>
      vget_vset_other _ (Ne.symm other) _, rfl, rfl, rfl, rfl, rfl, rfl, rfl⟩
end

section
/-! PROOFS. The loads of furnace and line configurations (R2, R3, R5, R6, R85, R98). -/

namespace Sys2Proof.Machine

set_option Elab.async false

section
variable {s : State}

/-! ### Furnaces -/

/-- R98: in sound storage the next boundary is written and nothing else. -/
theorem computeBoundary_of_sound (sound : s.sound) (g : Fin 4) : s.computeBoundary g = s.setBoundary g (s.boundaryFrom g) := by
  unfold State.computeBoundary State.touchBoundary
  rw [touch_of_sound sound, ite_self]

/-- R3: the live set after a load of the state field. -/
def State.liveLoaded (s : State) (f : Fin 4) (was is : Bool) : FurnaceLive :=
  if was = is then s.fLive f else if is ∧ (s.run = .run ∨ s.run = .halt) then { base := { start := s.stamp } } else {}

/-- R3: the group after a load of the state field. -/
def State.groupLoaded (s : State) (f : Fin 4) (was is : Bool) : GroupClose :=
  if was = is then s.group f
  else { s.group f with closing := if is then none else (s.group f).closing, deferred := false }

/-- R76, R90: the input state after a load of the state field. -/
def State.inputLoaded (s : State) (f : Fin 4) (was is : Bool) : FurnaceInput :=
  let x := s.furnaceInput f
  if was = is then x
  else if is then (if s.run = .pass then x else { x with rev := some { level := vget s.pins.rev f } })
  else { x with rev := none, blankingEnd := none }

/-- R98: the next boundary of a configuration. -/
def FurnaceConfig.nextFrom (c : FurnaceConfig) (t : Clock) : Option Nat :=
  if c.defined ∧ c.mode ≠ .marked ∧ t.timeSet then nextBoundary c.offset c.length t.sec else none

theorem furnaceState_of_sound (sound : s.sound) (f : Fin 4) (was is : Bool) : s.furnaceState f was is =
    { s with
      furnaceLive := vset s.furnaceLive f (s.liveLoaded f was is)
      groups := vset s.groups f (s.groupLoaded f was is)
      furnaceInputs := vset s.furnaceInputs f (s.inputLoaded f was is) } := by
  have same : s = { s with
      furnaceLive := vset s.furnaceLive f (vget s.furnaceLive f)
      groups := vset s.groups f (vget s.groups f)
      furnaceInputs := vset s.furnaceInputs f (vget s.furnaceInputs f) } := by simp only [vset_vget]
  have start : (if s.closes then s.stamp else {} : Stamp) = if s.run = .run ∨ s.run = .halt then s.stamp else {} := by
    simp [State.closes]
  cases was <;> cases is
  · exact same
  · have live : ({ base := { start := if s.closes then s.stamp else {} } } : FurnaceLive) = s.liveLoaded f false true := by
      rw [start]
      simp only [State.liveLoaded]
      by_cases h : s.run = .run ∨ s.run = .halt <;> simp [h]
    have written : (((s.setFLive f (s.liveLoaded f false true)).setGroup f
        { s.group f with closing := none, deferred := false }).rewritten (.live (.furnace f))) =
        (s.setFLive f (s.liveLoaded f false true)).setGroup f { s.group f with closing := none, deferred := false } :=
      rewritten_of_sound (s := (s.setFLive f _).setGroup f _) sound _
    simp only [State.furnaceState, Bool.not_false, Bool.and_self, if_true, live]
    rw [written]
    simp only [State.inputLoaded, if_true, Bool.false_eq_true, if_false]
    by_cases pass : s.run = .pass
    · rw [if_pos pass, if_pos pass]
      show _ = ({ s with furnaceLive := _, groups := _, furnaceInputs := vset s.furnaceInputs f (vget s.furnaceInputs f) } : State)
      rw [vset_vget]
      rfl
    · rw [if_neg pass, if_neg pass]
      rfl
  · exact rewritten_of_sound (s := ((s.setFLive f _).setGroup f _).setFurnaceInput f _) sound _
  · exact same

/-- R2, R3, R98: a load in sound storage. -/
theorem loadFurnace_of_sound (sound : s.sound) (f : Fin 4) (c : FurnaceConfig) : s.loadFurnace f c =
    { s with
      furnaces := vset s.furnaces f c
      furnaceLive := vset s.furnaceLive f (s.liveLoaded f (s.furnaceCfg f).defined c.defined)
      groups := vset s.groups f (s.groupLoaded f (s.furnaceCfg f).defined c.defined)
      furnaceInputs := vset s.furnaceInputs f (s.inputLoaded f (s.furnaceCfg f).defined c.defined)
      clock := { s.clock with boundary := vset s.clock.boundary f (c.nextFrom s.clock) } } := by
  have set : (s.setFurnaceCfg f c).sound := sound
  unfold State.loadFurnace
  rw [rewritten_of_sound set, furnaceState_of_sound set]
  have loaded (t : State) (ht : t.sound) (cfg : t.furnaceCfg f = c) (clock : t.clock = s.clock) : t.computeBoundary f =
      { t with clock := { s.clock with boundary := vset s.clock.boundary f (c.nextFrom s.clock) } } := by
    have timed : (c.timed = true ∧ s.clock.timeSet = true) ↔ (c.defined = true ∧ c.mode ≠ .marked ∧ s.clock.timeSet = true) := by
      simp [FurnaceConfig.timed, and_assoc]
    rw [computeBoundary_of_sound ht, State.boundaryFrom, cfg, clock, State.setBoundary, clock, FurnaceConfig.nextFrom]
    simp only [timed]
  refine (loaded _ ?_ ?_ ?_).trans rfl
  · exact sound
  · exact vget_vset_same _ _ _
  · rfl

/-- R2: the conditions that refuse a load. -/
theorem State.furnaceHeld_iff (s : State) (f : Fin 4) (c : FurnaceConfig) : s.furnaceHeld f c = true ↔
    (s.furnaceCfg f).defined = true ∧ c.defined = false ∧
      (s.linesOf f ≠ [] ∨ s.targeted (.furnace f) = true ∨ (s.group f).closing.isSome) := by
  simp [State.furnaceHeld, State.isClosing, and_assoc, or_assoc]

theorem closeMode?_code (m : CloseMode) : closeMode? m.code = some m := by cases m <;> rfl
theorem CloseMode.code_lt (m : CloseMode) : m.code < 2 ^ 8 := by cases m <;> decide

/-- R191: a configuration in range reads back from its fields. -/
theorem furnaceOf_sent {c : FurnaceConfig} (range : c.InRange) :
    furnaceOf (BitVec.ofNat 8 (bitOf c.defined)).toNat (BitVec.ofNat 8 c.mode.code).toNat
      (BitVec.ofNat 8 c.markSource).toNat (BitVec.ofNat 16 c.length).toNat (BitVec.ofNat 16 c.offset).toNat
      (BitVec.ofNat 8 c.blanking).toNat (BitVec.ofNat 32 c.lowMass).toNat (BitVec.ofNat 32 c.bandLow).toNat
      (BitVec.ofNat 32 c.bandHigh).toNat = some c := by
  have all := range
  obtain ⟨source, least, most, offset, blanking, mass, high, band⟩ := range
  have mass' : c.lowMass < 2 ^ 32 := Nat.lt_succ_of_le mass
  have high' : c.bandHigh < 2 ^ 32 := Nat.lt_succ_of_le high
  unfold furnaceOf
  rw [toNat_ofNat_of_lt (bitOf_lt _), toNat_ofNat_of_lt c.mode.code_lt, bool?_bitOf, closeMode?_code,
    toNat_ofNat_of_lt (show c.markSource < 2 ^ 8 by omega), toNat_ofNat_of_lt (show c.length < 2 ^ 16 by omega),
    toNat_ofNat_of_lt (show c.offset < 2 ^ 16 by omega), toNat_ofNat_of_lt (show c.blanking < 2 ^ 8 by omega),
    toNat_ofNat_of_lt mass', toNat_ofNat_of_lt (Nat.lt_of_le_of_lt band high'), toNat_ofNat_of_lt high']
  exact if_pos ⟨source, least, most, offset, blanking, mass, high, band⟩

theorem bool?_of_lt {x : Nat} (h : 1 < x) : bool? x = none := bool?_of_le h

theorem closeMode?_of_lt {x : Nat} (h : 2 < x) : closeMode? x = none := by
  match x with
  | x + 3 => rfl

/-- R2, R171: a field out of its range loads nothing. -/
theorem furnaceOf_of_out {state mode source length offset blanking mass lo hi : Nat}
    (h : 1 < state ∨ 2 < mode ∨ 254 < source ∨ length < 1 ∨ 1440 < length ∨ 1439 < offset ∨ 120 < blanking ∨ hi < lo) :
    furnaceOf state mode source length offset blanking mass lo hi = none := by
  unfold furnaceOf
  rcases h with far | far | out
  · rw [bool?_of_lt far]
  · rw [closeMode?_of_lt far]
    cases bool? state <;> rfl
  · cases bool? state with
    | none => rfl
    | some d =>
      cases closeMode? mode with
      | none => rfl
      | some m => exact if_neg (by omega)

/-- The fields of an ldfn (R194). -/
def ldfnFields (f st md ms : Byte) (len off : BitVec 16) (bl : Byte) (low lo hi : BitVec 32) : List (Nat × Nat) :=
  [(1, f.toNat), (1, st.toNat), (1, md.toNat), (1, ms.toNat), (2, len.toNat), (2, off.toNat), (1, bl.toNat),
    (4, low.toNat), (4, lo.toNat), (4, hi.toNat)]

theorem packFields_ldfnFields (f st md ms : Byte) (len off : BitVec 16) (bl : Byte) (low lo hi : BitVec 32) :
    packFields (ldfnFields f st md ms len off bl low lo hi) =
      [f, st, md, ms] ++ be 2 len.toNat ++ be 2 off.toNat ++ [bl] ++ be 4 low.toNat ++ be 4 lo.toNat ++ be 4 hi.toNat := by
  simp [ldfnFields, packFields]

theorem takeLdfn_packed (s : State) (f st md ms : Byte) (len off : BitVec 16) (bl : Byte) (low lo hi : BitVec 32) :
    takeLdfn (packFields (ldfnFields f st md ms len off bl low lo hi)) s =
      match fin? 4 f.toNat,
        furnaceOf st.toNat md.toNat ms.toNat len.toNat off.toNat bl.toNat low.toNat lo.toNat hi.toNat with
      | some f, some c =>
        if (s.touch (.config (.furnace f))).furnaceHeld f c then refuse .state (s.touch (.config (.furnace f)))
        else answer [] ((s.touch (.config (.furnace f))).loadFurnace f c)
      | _, _ => refuse .badarg s := by
  have read := fields_packFields (l := ldfnFields f st md ms len off bl low lo hi) (by
    simp only [ldfnFields, List.forall_mem_cons]
    exact ⟨byte_fits _, byte_fits _, byte_fits _, byte_fits _, word_fits _, word_fits _, byte_fits _, long_fits _,
      long_fits _, long_fits _, by simp⟩)
  generalize packFields (ldfnFields f st md ms len off bl low lo hi) = args at read ⊢
  simp only [ldfnFields, List.map_cons, List.map_nil] at read
  simp only [takeLdfn, read] <;> rfl

/-! ### Lines -/

/-- R85: a line's inputs at a new stop timeout. -/
def LineInput.retimed (x : LineInput) (timeout now : Nat) : LineInput :=
  match x.running, x.lastCut with
  | true, some t =>
    if t + timeout * 1000 ≤ now then { x with running := false, stopAt := none }
    else { x with stopAt := some (t + timeout * 1000) }
  | _, _ => x

/-- R6, R76, R85: a line's inputs after a load. -/
def LineInput.loaded (x : LineInput) (was c : LineConfig) (pins : Pins) (l : Fin 8) (now : Nat) : LineInput :=
  if was.furnace.isNone ∧ c.furnace.isSome then x.tracking true pins l
  else if was.furnace.isSome ∧ c.furnace.isNone then
    { x with cut := none, rej := none, div := none, stopAt := none, running := false }
  else if was.timeout ≠ c.timeout then x.retimed c.timeout now
  else x

theorem State.retime_eq (s : State) (l : Fin 8) : s.retime l =
    s.setLineInput l ((s.lineInput l).retimed (s.lineCfg l).timeout s.now) := by
  have same : s = s.setLineInput l (s.lineInput l) := by
    show s = { s with lineInputs := vset s.lineInputs l (vget s.lineInputs l) }
    rw [vset_vget]
  unfold State.retime LineInput.retimed
  dsimp only
  cases running : (s.lineInput l).running with
  | false => exact same
  | true =>
    cases cut : (s.lineInput l).lastCut with
    | none => exact same
    | some u => exact (apply_ite (s.setLineInput l) _ _ _).symm

/-- R5, R6: a load in sound storage. -/
theorem loadLine_of_sound (sound : s.sound) (l : Fin 8) (c : LineConfig) : s.loadLine l c =
    { s with
      lines := vset s.lines l c
      lineInputs := vset s.lineInputs l ((s.lineInput l).loaded (s.lineCfg l) c s.pins l s.now) } := by
  have set : (s.setLineCfg l c).sound := sound
  unfold State.loadLine
  rw [rewritten_of_sound set]
  unfold State.lineInputsAfter LineInput.loaded
  by_cases starts : (s.lineCfg l).furnace.isNone ∧ c.furnace.isSome
  · rw [if_pos starts, if_pos starts]
    rfl
  · rw [if_neg starts, if_neg starts]
    by_cases stops : (s.lineCfg l).furnace.isSome ∧ c.furnace.isNone
    · rw [if_pos stops, if_pos stops]
      rfl
    · rw [if_neg stops, if_neg stops]
      by_cases moved : (s.lineCfg l).timeout ≠ c.timeout
      · rw [if_pos moved, if_pos moved, State.retime_eq]
        have cfg : (s.setLineCfg l c).lineCfg l = c := vget_vset_same _ _ _
        rw [cfg]
        rfl
      · rw [if_neg moved, if_neg moved]
        show _ = ({ s with lines := _, lineInputs := vset s.lineInputs l (vget s.lineInputs l) } : State)
        rw [vset_vget]
        rfl

/-- R5: a line that names an UNUSED furnace. -/
theorem State.namesUnused_iff (s : State) (c : LineConfig) : s.namesUnused c = true ↔
    ∃ f, c.furnace = some f ∧ (s.furnaceCfg f).defined = false := by
  unfold State.namesUnused
  cases c.furnace with
  | none => simp
  | some f => simp

/-- R5: the conditions that refuse a load. -/
theorem State.lineHeld_iff (s : State) (l : Fin 8) (c : LineConfig) : s.lineHeld l c = true ↔
    (c.furnace ≠ (s.lineCfg l).furnace ∧ s.run ≠ .idle) ∨ (c.furnace = none ∧ s.targeted (.line l) = true) := by
  simp [State.lineHeld]

/-- R191: the byte of a line's furnace field. -/
def LineConfig.furnaceSent (c : LineConfig) : Byte :=
  match c.furnace with
  | none => 255#8
  | some f => BitVec.ofNat 8 f.val

theorem furnaceField_sent (c : LineConfig) : furnaceField c.furnaceSent.toNat = some c.furnace := by
  unfold LineConfig.furnaceSent
  cases c.furnace with
  | none => rfl
  | some f =>
    have small : (BitVec.ofNat 8 f.val).toNat = f.val := toNat_ofNat_of_lt (by omega)
    show furnaceField (BitVec.ofNat 8 f.val).toNat = _
    unfold furnaceField
    rw [if_neg (by omega), fin?_ofNat (by decide : 4 ≤ 256)]
    rfl

theorem lineOf_sent {c : LineConfig} (range : c.InRange) :
    lineOf c.furnaceSent.toNat (BitVec.ofNat 16 c.spacing).toNat (BitVec.ofNat 16 c.timeout).toNat
      (BitVec.ofNat 8 (bitOf c.stopAlert)).toNat (BitVec.ofNat 16 c.gobLow).toNat (BitVec.ofNat 16 c.gobHigh).toNat
      (BitVec.ofNat 32 c.lowMass).toNat (BitVec.ofNat 32 c.bandLow).toNat (BitVec.ofNat 32 c.bandHigh).toNat =
    some c := by
  obtain ⟨s10, s1000, t1, t600, g1, g, gob, mass, high, band⟩ := range
  have mass' : c.lowMass < 2 ^ 32 := Nat.lt_succ_of_le mass
  have high' : c.bandHigh < 2 ^ 32 := Nat.lt_succ_of_le high
  unfold lineOf
  rw [furnaceField_sent, toNat_ofNat_of_lt (bitOf_lt _), bool?_bitOf,
    toNat_ofNat_of_lt (show c.spacing < 2 ^ 16 by omega), toNat_ofNat_of_lt (show c.timeout < 2 ^ 16 by omega),
    toNat_ofNat_of_lt (show c.gobLow < 2 ^ 16 by omega), toNat_ofNat_of_lt (show c.gobHigh < 2 ^ 16 by omega),
    toNat_ofNat_of_lt mass', toNat_ofNat_of_lt (Nat.lt_of_le_of_lt band high'), toNat_ofNat_of_lt high']
  exact if_pos ⟨s10, s1000, t1, t600, g1, g, gob, mass, high, band⟩

theorem furnaceField_of_far {x : Nat} (h : 3 < x) (used : x ≠ 255) : furnaceField x = none := by
  unfold furnaceField
  rw [if_neg used, fin?_of_le h]
  rfl

/-- R5, R171: a field out of its range loads nothing. -/
theorem lineOf_of_out {f sp tm al gl gh low lo hi : Nat}
    (h : (3 < f ∧ f ≠ 255) ∨ sp < 10 ∨ 1000 < sp ∨ tm < 1 ∨ 600 < tm ∨ 1 < al ∨ gl < 1 ∨ gh < gl ∨ hi < lo) :
    lineOf f sp tm al gl gh low lo hi = none := by
  unfold lineOf
  rcases h with ⟨far, used⟩ | out
  · rw [furnaceField_of_far far used]
  · cases furnaceField f with
    | none => rfl
    | some f =>
      by_cases far : 1 < al
      · rw [bool?_of_lt far]
      · cases bool? al with
        | none => rfl
        | some a => exact if_neg (by omega)

/-- The fields of an ldln (R194). -/
def ldlnFields (l f : Byte) (sp tm : BitVec 16) (al : Byte) (gl gh : BitVec 16) (low lo hi : BitVec 32) :
    List (Nat × Nat) :=
  [(1, l.toNat), (1, f.toNat), (2, sp.toNat), (2, tm.toNat), (1, al.toNat), (2, gl.toNat), (2, gh.toNat),
    (4, low.toNat), (4, lo.toNat), (4, hi.toNat)]

theorem packFields_ldlnFields (l f : Byte) (sp tm : BitVec 16) (al : Byte) (gl gh : BitVec 16) (low lo hi : BitVec 32) :
    packFields (ldlnFields l f sp tm al gl gh low lo hi) =
      [l, f] ++ be 2 sp.toNat ++ be 2 tm.toNat ++ [al] ++ be 2 gl.toNat ++ be 2 gh.toNat ++ be 4 low.toNat ++
        be 4 lo.toNat ++ be 4 hi.toNat := by
  simp [ldlnFields, packFields]

theorem takeLdln_packed (s : State) (l f : Byte) (sp tm : BitVec 16) (al : Byte) (gl gh : BitVec 16)
    (low lo hi : BitVec 32) : takeLdln (packFields (ldlnFields l f sp tm al gl gh low lo hi)) s =
      match fin? 8 l.toNat,
        lineOf f.toNat sp.toNat tm.toNat al.toNat gl.toNat gh.toNat low.toNat lo.toNat hi.toNat with
      | some l, some c =>
        if s.namesUnused c then refuse .badarg s
        else if (s.touch (.config (.line l))).lineHeld l c then refuse .state (s.touch (.config (.line l)))
        else answer [] ((s.touch (.config (.line l))).loadLine l c)
      | _, _ => refuse .badarg s := by
  have read := fields_packFields (l := ldlnFields l f sp tm al gl gh low lo hi) (by
    simp only [ldlnFields, List.forall_mem_cons]
    exact ⟨byte_fits _, byte_fits _, word_fits _, word_fits _, byte_fits _, word_fits _, word_fits _, long_fits _,
      long_fits _, long_fits _, by simp⟩)
  generalize packFields (ldlnFields l f sp tm al gl gh low lo hi) = args at read ⊢
  simp only [ldlnFields, List.map_cons, List.map_nil] at read
  simp only [takeLdln, read] <;> rfl

end

end Sys2Proof.Machine

open Sys2Proof Sys2Proof.Machine

/-- Settles O23: the configuration reads back from its bytes, and the load is `loadFurnace_of_sound`. -/
theorem furnaceLoads : Obligations.FurnaceLoads := by
  refine ⟨fun src tag f c s free sound range => ?_, fun src tag f st md ms bl len off low lo hi s free out => ?_⟩
  · intro was held x
    have reserved : s.reserveSlot.sound := sound_reserveSlot sound
    have row {r : Reply} {e : State} (h : (if s.reserveSlot.furnaceHeld f c then refuse .state s.reserveSlot
        else answer [] (s.reserveSlot.loadFurnace f c)) = (r, e)) :
        ∃ args, exec (ldfnOf src tag f c) s = .next (s.taken ⟨src, 0x10#8, tag, args⟩ r e) := by
      refine ⟨_, next_taken free rfl ((runCommand_ldfn _ _ _ _).trans ((takeLdfn_packed ..).trans ?_))⟩
      simp only [touch_of_sound reserved]
      rw [fin?_ofNat (by decide : 4 ≤ 256), furnaceOf_sent range]
      exact h
    have refused : s.reserveSlot.furnaceHeld f c = true ↔ held := s.reserveSlot.furnaceHeld_iff f c
    refine ⟨fun h => ?_, fun h => ?_⟩
    · obtain ⟨args, taken⟩ := row (if_pos (refused.mpr h))
      obtain ⟨a, fp, p, frame⟩ := s.taken_frame _ _ _
      exact ⟨_, taken.trans (congrArg _ frame), ⟨_, rfl, rfl, rfl⟩, rfl, rfl, rfl, rfl, rfl⟩
    · obtain ⟨args, taken⟩ := row (if_neg (mt refused.mp h))
      rw [loadFurnace_of_sound reserved] at taken
      obtain ⟨a, fp, p, frame⟩ := s.taken_frame _ _ _
      refine ⟨_, taken.trans (congrArg _ frame), ⟨_, rfl, rfl, rfl⟩, vget_vset_same _ _ _, fun i other =>
        ⟨vget_vset_other _ other.symm _, vget_vset_other _ other.symm _, vget_vset_other _ other.symm _,
          vget_vset_other _ other.symm _, vget_vset_other _ other.symm _⟩, ?_, fun same => ⟨?_, ?_⟩,
        fun moved => ⟨?_, ?_⟩, vget_vset_same _ _ _, vget_vset_same _ _ _, rfl, rfl, rfl, rfl, rfl, rfl, rfl⟩
      · refine (congrArg GroupClose.period (vget_vset_same _ _ _)).trans ?_
        unfold State.groupLoaded
        split <;> rfl
      · exact (vget_vset_same _ _ _).trans (if_pos same)
      · exact (vget_vset_same _ _ _).trans (if_pos same)
      · exact (congrArg GroupClose.deferred (vget_vset_same _ _ _)).trans (congrArg GroupClose.deferred (if_neg moved))
      · exact (vget_vset_same _ _ _).trans (if_neg moved)
  · refine next_taken free (packFields_ldfnFields ..) ((runCommand_ldfn _ _ _ _).trans ?_)
    rw [← packFields_ldfnFields, takeLdfn_packed]
    rcases out with far | out
    · rw [fin?_of_le far]
      rfl
    · rw [furnaceOf_of_out out]
      cases fin? 4 f.toNat <;> rfl

/-- Settles O24: the configuration reads back from its bytes, and the load is `loadLine_of_sound`. -/
theorem lineLoads : Obligations.LineLoads := by
  refine ⟨fun src tag l c s free sound range => ?_, fun src tag l f al sp tm gl gh low lo hi s free out => ?_⟩
  · intro bad held x
    have reserved : s.reserveSlot.sound := sound_reserveSlot sound
    have row {r : Reply} {e : State} (h : (if s.reserveSlot.namesUnused c then refuse .badarg s.reserveSlot
        else if s.reserveSlot.lineHeld l c then refuse .state s.reserveSlot
        else answer [] (s.reserveSlot.loadLine l c)) = (r, e)) :
        ∃ args, exec (ldlnOf src tag l c) s = .next (s.taken ⟨src, 0x12#8, tag, args⟩ r e) := by
      refine ⟨_, next_taken free rfl ((runCommand_ldln _ _ _ _).trans ((takeLdln_packed (f := c.furnaceSent) ..).trans ?_))⟩
      simp only [touch_of_sound reserved]
      rw [fin?_ofNat (by decide : 8 ≤ 256), lineOf_sent range]
      exact h
    have unused : s.reserveSlot.namesUnused c = true ↔ bad := s.reserveSlot.namesUnused_iff c
    have refused : s.reserveSlot.lineHeld l c = true ↔ held := s.reserveSlot.lineHeld_iff l c
    refine ⟨fun h => ?_, fun good h => ?_, fun good h => ?_⟩
    · obtain ⟨args, taken⟩ := row (if_pos (unused.mpr h))
      obtain ⟨a, fp, p, frame⟩ := s.taken_frame _ _ _
      exact ⟨_, taken.trans (congrArg _ frame), ⟨_, rfl, rfl, rfl⟩, rfl, rfl⟩
    · obtain ⟨args, taken⟩ := row ((if_neg (mt unused.mp good)).trans (if_pos (refused.mpr h)))
      obtain ⟨a, fp, p, frame⟩ := s.taken_frame _ _ _
      exact ⟨_, taken.trans (congrArg _ frame), ⟨_, rfl, rfl, rfl⟩, rfl, rfl⟩
    · obtain ⟨args, taken⟩ := row ((if_neg (mt unused.mp good)).trans (if_neg (mt refused.mp h)))
      rw [loadLine_of_sound reserved] at taken
      obtain ⟨a, fp, p, frame⟩ := s.taken_frame _ _ _
      have input {y : LineInput} (e : x.loaded (s.lineCfg l) c s.pins l s.clock.elapsed = y) :
          vget (vset s.lineInputs l (x.loaded (s.lineCfg l) c s.pins l s.clock.elapsed)) l = y :=
        (vget_vset_same _ _ _).trans e
      have starts (was : (s.lineCfg l).furnace = none) (is : c.furnace.isSome) := input (if_pos ⟨by rw [was]; rfl, is⟩)
      have stops (was : (s.lineCfg l).furnace.isSome) (is : c.furnace = none) := input
        ((if_neg fun h => by rw [is] at h; exact Bool.false_ne_true h.2).trans (if_pos ⟨was, by rw [is]; rfl⟩))
      have stays (same : (s.lineCfg l).furnace.isSome = c.furnace.isSome) :
          x.loaded (s.lineCfg l) c s.pins l s.clock.elapsed =
            if (s.lineCfg l).timeout ≠ c.timeout then x.retimed c.timeout s.clock.elapsed else x := by
        refine (if_neg fun h => ?_).trans (if_neg fun h => ?_)
        · obtain ⟨was, is⟩ := h
          rw [← same, Option.isNone_iff_eq_none.mp was] at is
          exact Bool.false_ne_true is
        · obtain ⟨was, is⟩ := h
          rw [same, Option.isNone_iff_eq_none.mp is] at was
          exact Bool.false_ne_true was
      refine ⟨_, taken.trans (congrArg _ frame), ⟨_, rfl, rfl, rfl⟩, vget_vset_same _ _ _, fun i other =>
        ⟨vget_vset_other _ other.symm _, vget_vset_other _ other.symm _⟩, fun was is => ?_, fun is was => ?_,
        fun same => ⟨fun keeps => ?_, fun moved running u cut => ?_⟩, rfl, rfl, rfl, rfl, rfl, rfl, rfl⟩
      · exact ⟨congrArg LineInput.running (starts was is), congrArg LineInput.lastCut (starts was is),
          congrArg LineInput.cut (starts was is), congrArg LineInput.rej (starts was is),
          congrArg LineInput.div (starts was is)⟩
      · exact ⟨congrArg LineInput.running (stops was is), congrArg LineInput.cut (stops was is),
          congrArg LineInput.rej (stops was is), congrArg LineInput.div (stops was is)⟩
      · refine input ((stays same).trans ?_)
        rcases keeps with kept | stopped | never
        · exact if_neg fun h => h kept.symm
        · have unmoved : x.retimed c.timeout s.clock.elapsed = x := by rw [LineInput.retimed, stopped]
          rw [unmoved, ite_self]
        · have unmoved : x.retimed c.timeout s.clock.elapsed = x := by
            rw [LineInput.retimed, never]
            cases x.running <;> rfl
          rw [unmoved, ite_self]
      · refine input ((stays same).trans ((if_pos (Ne.symm moved)).trans ?_))
        rw [LineInput.retimed, running, cut]
  · refine next_taken free (packFields_ldlnFields ..) ((runCommand_ldln _ _ _ _).trans ?_)
    rw [← packFields_ldlnFields, takeLdln_packed]
    rcases out with far | out
    · rw [fin?_of_le far]
      rfl
    · have names : f ≠ 255#8 → f.toNat ≠ 255 := fun h e => h (BitVec.eq_of_toNat_eq e)
      rw [lineOf_of_out (out.imp_left (And.imp_right names))]
      cases fin? 8 l.toNat <;> rfl
end

section
/-! PROOFS. Intake, take and answer of commands (R164, R168 to R173). -/

namespace Sys2Proof.Machine

set_option Elab.async false

section
variable {s : State}

theorem next_settle {t : State} (h : s = t) :
    (.next (settle s) : Host.Outcome State Fault Refusal) = .next (settle t) := by rw [h]

/-! ### The take event (R170) -/

/-- R170: the oldest command is taken where none is in execution and a slot is free. -/
theorem tryTake_of_free {c : Command} {rest : List Command} (waiting : s.commands = c :: rest)
    (idle : s.executing = none) (room : s.plant.slots < 6) : s.tryTake = { s with commands := rest }.execute c := by
  have may : s.mayTake = true := by
    simp only [State.mayTake, idle, Option.isNone_none, Bool.true_and]
    exact decide_eq_true room
  unfold State.tryTake
  rw [waiting]
  exact if_pos may

/-- R170: nothing is taken where none waits, or no slot is free. -/
theorem tryTake_of_none_or_full (h : s.commands = [] ∨ 6 ≤ s.plant.slots) : s.tryTake = s := by
  unfold State.tryTake
  cases waiting : s.commands with
  | nil => rfl
  | cons c rest =>
    have full := h.resolve_left (by rw [waiting]; simp)
    have may : ¬s.mayTake = true := fun may => by
      simp only [State.mayTake, Bool.and_eq_true, decide_eq_true_eq] at may
      exact absurd may.2 (Nat.not_lt.mpr full)
    exact if_neg may

/-! ### A cmnd to the part on the plant port (R160, R161, R168) -/

/-- R160, R161: the tap consumes a cmnd to the part, so nothing of it is stored. -/
theorem forward_of_consumed (rx : s.plant.rx = none) (src : Byte) (payload : List Byte) (begun : Begun) :
    s.forward .plant { dest := s.address, src := src, kind := kindCmnd, payload := payload } begun = s := by
  unfold State.forward
  rw [show (s.port .plant).rx = none from rx]
  have consumed : s.consumes s.address kindCmnd = true := decide_eq_true ⟨rfl, rfl⟩
  exact if_neg fun h => by rw [consumed] at h; simp at h

/-- R168: a cmnd to the part reaches the command unit and moves nothing else. -/
theorem receive_cmnd (up : s.plant.link = .up) (rx : s.plant.rx = none) (src : Byte) {payload : List Byte}
    (short : payload.length ≤ 248) (begun : Begun) :
    s.receive .plant { dest := s.address, src := src, kind := kindCmnd, payload := payload } begun = s.intake src payload := by
  unfold State.receive
  rw [if_pos (show (s.port .plant).link = .up from up), if_pos (show payload.length ≤ 248 from short),
    forward_of_consumed rx]
  exact if_pos rfl

theorem exec_cmnd (up : s.plant.link = .up) (rx : s.plant.rx = none) (src code tag : Byte) {args : List Byte}
    (short : args.length ≤ 246) (begun : Begun) :
    exec (.cmndReceived .plant s.address src ⟨code :: tag :: args, begun⟩) s = .next (settle (s.arrive ⟨src, code, tag, args⟩)) :=
  next_settle (receive_cmnd up rx src (payload := code :: tag :: args) (Nat.add_le_add_right short 2) begun)

theorem intake_of_short (src : Byte) {payload : List Byte} (short : payload.length < 2) : s.intake src payload = s := by
  match payload with
  | [] => rfl
  | [b] => rfl

/-! ### The answer event (R172, R173) -/

theorem ansrFrame_eq (s : State) (c : Command) (r : Reply) : s.ansrFrame c r =
    { dest := c.source, src := s.address, kind := 6#8
      payload := c.code :: c.tag :: BitVec.ofNat 8 r.status.code :: r.results } := by
  unfold State.ansrFrame
  rw [be_one_eq]
  rfl

/-- R164, R173: an answer in its reserved slot, or lost. -/
theorem placeAnswer_eq (slots : s.plant.slots ≤ 6) (x : InExecution) : s.placeAnswer x = { s with plant :=
    if s.plant.reserved = 0 then s.plant
    else { s.plant with
      reserved := s.plant.reserved - 1
      localQueue := if s.plant.link = .up then s.plant.localQueue ++ [s.ansrFrame x.command x.reply]
        else s.plant.localQueue } } := by
  unfold State.placeAnswer
  by_cases emptied : s.plant.reserved = 0
  · rw [if_pos emptied, if_pos emptied]
  · rw [if_neg emptied, if_neg emptied]
    have room : (s.plant.localQueue.length + (s.plant.reserved - 1)) < 6 := by
      have : s.plant.localQueue.length + s.plant.reserved ≤ 6 := slots
      omega
    by_cases up : s.plant.link = .up
    · rw [if_pos up]
      exact State.pushLocal_of_room _ .plant _ up room
    · rw [if_neg up]
      exact State.pushLocal_of_lost _ .plant _ (.inl up)

end

end Sys2Proof.Machine

open Sys2Proof Sys2Proof.Machine

/-- Settles O16: the tap hands the frame to the command unit, where it waits, is taken, or is refused. -/
theorem commandsWaitOrAreRefusedFull : Obligations.CommandsWaitOrAreRefusedFull := by
  refine ⟨fun src code tag args begun s up rx short few blocked => ?_,
    fun src code tag args begun s c rest up rx short few idle room first => ?_,
    fun src payload begun s rx short => ?_, fun src code tag args begun s up rx short four => ?_⟩
  · rw [exec_cmnd up rx src code tag short, State.arrive, if_pos few]
    refine next_settle ?_
    rcases blocked with busy | full
    · exact State.tryTake_of_busy (.inl busy)
    · exact tryTake_of_none_or_full (.inr full)
  · intro r
    rw [exec_cmnd up rx src code tag short, State.arrive, if_pos few]
    exact next_settle (tryTake_of_free (s := { s with commands := _ }) first idle room)
  · refine next_settle ?_
    by_cases up : s.plant.link = .up
    · exact (receive_cmnd up rx src (show payload.length ≤ 248 by omega) begun).trans (intake_of_short src short)
    · exact if_neg up
  · rw [exec_cmnd up rx src code tag short, State.arrive, if_neg (by omega)]
    by_cases room : s.plant.slots < 6
    · rw [if_pos room]
      exact next_settle (s.pushLocal_of_room .plant _ up room)
    · rw [if_neg room]
      exact next_settle (s.pushLocal_of_lost .plant _ (.inr (Nat.not_lt.mp room)))

/-- Settles O17: the answer placed (`placeAnswer_eq`), then the take event. -/
theorem answerFillsItsSlotAndTheNextIsTaken : Obligations.AnswerFillsItsSlotAndTheNextIsTaken := by
  refine ⟨fun s idle => ?_, fun s x executing slots => ?_⟩
  · refine next_settle ?_
    unfold State.answerEvent
    rw [idle]
  · intro answer placed u
    have row : exec .answerEvent s = .next (settle u.tryTake) := by
      refine next_settle ?_
      unfold State.answerEvent
      rw [executing]
      dsimp only
      rw [placeAnswer_eq slots, ansrFrame_eq]
    refine ⟨fun none => ?_, fun c rest waiting room => ?_⟩
    · rw [row, tryTake_of_none_or_full none]
    · intro r
      rw [row, tryTake_of_free (s := u) waiting rfl room]
      rfl
end

section
/-! PROOFS. Pin changes, level changes, rejects, the stop timer and the second mark (R75, R81 to R86). -/

namespace Sys2Proof.Machine

set_option Elab.async false

/-- R163, R181: what follows an event moves the attention unit and the ports alone. -/
theorem next_settled (u : State) : ∃ a f p, (.next (settle u) : Host.Outcome State Fault Refusal) =
    .next { u with attention := a, field := f, plant := p } :=
  ⟨_, _, _, congrArg Host.Outcome.next (settle_frame u)⟩

section
variable (u : State)

/-! ### What an event leaves when the attention unit and the ports have followed it (R163, R181) -/

@[simp] theorem settle_run : (settle u).run = u.run := (congrArg State.run (settle_frame u) :)
@[simp] theorem settle_clock : (settle u).clock = u.clock := (congrArg State.clock (settle_frame u) :)
@[simp] theorem settle_furnaces : (settle u).furnaces = u.furnaces := (congrArg State.furnaces (settle_frame u) :)
@[simp] theorem settle_lines : (settle u).lines = u.lines := (congrArg State.lines (settle_frame u) :)
@[simp] theorem settle_jobs : (settle u).jobs = u.jobs := (congrArg State.jobs (settle_frame u) :)
@[simp] theorem settle_furnaceLive : (settle u).furnaceLive = u.furnaceLive :=
  (congrArg State.furnaceLive (settle_frame u) :)
@[simp] theorem settle_lineLive : (settle u).lineLive = u.lineLive := (congrArg State.lineLive (settle_frame u) :)
@[simp] theorem settle_groups : (settle u).groups = u.groups := (congrArg State.groups (settle_frame u) :)
@[simp] theorem settle_streams : (settle u).streams = u.streams := (congrArg State.streams (settle_frame u) :)
@[simp] theorem settle_heard : (settle u).heard = u.heard := (congrArg State.heard (settle_frame u) :)
@[simp] theorem settle_lineInputs : (settle u).lineInputs = u.lineInputs :=
  (congrArg State.lineInputs (settle_frame u) :)
@[simp] theorem settle_furnaceInputs : (settle u).furnaceInputs = u.furnaceInputs :=
  (congrArg State.furnaceInputs (settle_frame u) :)
@[simp] theorem settle_records : (settle u).records = u.records := (congrArg State.records (settle_frame u) :)
@[simp] theorem settle_lost : (settle u).lost = u.lost := (congrArg State.lost (settle_frame u) :)
@[simp] theorem settle_furnaceTotals : (settle u).furnaceTotals = u.furnaceTotals :=
  (congrArg State.furnaceTotals (settle_frame u) :)
@[simp] theorem settle_lineTotals : (settle u).lineTotals = u.lineTotals :=
  (congrArg State.lineTotals (settle_frame u) :)
@[simp] theorem settle_snapshot : (settle u).snapshot = u.snapshot := (congrArg State.snapshot (settle_frame u) :)
@[simp] theorem settle_check : (settle u).check = u.check := (congrArg State.check (settle_frame u) :)
@[simp] theorem settle_executing : (settle u).executing = u.executing := (congrArg State.executing (settle_frame u) :)
@[simp] theorem settle_commands : (settle u).commands = u.commands := (congrArg State.commands (settle_frame u) :)

@[simp] theorem settle_furnaceCfg (f : Fin 4) : (settle u).furnaceCfg f = u.furnaceCfg f :=
  congrArg (fun v => vget v f) (settle_furnaces u)
@[simp] theorem settle_lineCfg (l : Fin 8) : (settle u).lineCfg l = u.lineCfg l :=
  congrArg (fun v => vget v l) (settle_lines u)
@[simp] theorem settle_fLive (f : Fin 4) : (settle u).fLive f = u.fLive f :=
  congrArg (fun v => vget v f) (settle_furnaceLive u)
@[simp] theorem settle_lLive (l : Fin 8) : (settle u).lLive l = u.lLive l :=
  congrArg (fun v => vget v l) (settle_lineLive u)
@[simp] theorem settle_group (g : Fin 4) : (settle u).group g = u.group g :=
  congrArg (fun v => vget v g) (settle_groups u)
@[simp] theorem settle_lineInput (l : Fin 8) : (settle u).lineInput l = u.lineInput l :=
  congrArg (fun v => vget v l) (settle_lineInputs u)
@[simp] theorem settle_furnaceInput (f : Fin 4) : (settle u).furnaceInput f = u.furnaceInput f :=
  congrArg (fun v => vget v f) (settle_furnaceInputs u)
@[simp] theorem settle_job (l : Fin 8) : (settle u).job l = u.job l :=
  congrArg (fun v => vget v l) (settle_jobs u)
@[simp] theorem settle_boundary (g : Fin 4) : (settle u).boundary g = u.boundary g :=
  congrArg (fun c : Clock => vget c.boundary g) (settle_clock u)

end

section
variable {s : State}

/-! ### The input filter (R75) -/

theorem Filter.sense_of_same (x : Filter) (hold now : Nat) : x.sense x.level hold now =
    { x with since := if x.ripe hold now then x.since else none } := by
  unfold Filter.sense
  rw [if_pos rfl]
  cases x.ripe hold now <;> rfl

theorem Filter.ripe_of_since {x : Filter} {u hold now : Nat} (since : x.since = some u) (held : u + hold ≤ now) :
    x.ripe hold now = true := by
  unfold Filter.ripe
  rw [since]
  exact decide_eq_true held

/-- R75: a change held for its hold time is due to the other level. -/
theorem levelDue_of_held {o : Option Filter} {c : Filter} {u hold now : Nat} (tracked : o = some c)
    (since : c.since = some u) (held : u + hold ≤ now) (level : Bool) :
    levelDue o level hold now = decide (c.level = !level) := by
  rw [tracked]
  show (decide (c.level = !level) && c.ripe hold now) = _
  rw [Filter.ripe_of_since since held, Bool.and_true]

theorem levelDue_or_of_held {o : Option Filter} {c : Filter} {u hold now : Nat} (tracked : o = some c)
    (since : c.since = some u) (held : u + hold ≤ now) :
    levelDue o true hold now = true ∨ levelDue o false hold now = true := by
  rw [levelDue_of_held tracked since held, levelDue_of_held tracked since held]
  cases c.level <;> simp

/-! ### PASS tracks no input (R76) -/

theorem lineTracked_of_pass (h : s.run = .pass) (l : Fin 8) : s.lineTracked l = false := by
  simp [State.lineTracked, h]

theorem furnaceTracked_of_pass (h : s.run = .pass) (f : Fin 4) : s.furnaceTracked f = false := by
  simp [State.furnaceTracked, h]

theorem cutEdge_of_untracked {l : Fin 8} (h : s.lineTracked l = false) : s.cutEdge l = s := by
  unfold State.cutEdge
  rw [h]
  exact if_neg fun due => Bool.false_ne_true due.1

theorem rejEdge_of_untracked {l : Fin 8} (h : s.lineTracked l = false) : s.rejEdge l = s := by
  unfold State.rejEdge
  rw [h]
  exact if_neg fun due => Bool.false_ne_true due.1

theorem divChange_of_untracked {l : Fin 8} (h : s.lineTracked l = false) : s.divChange l = s := by
  unfold State.divChange
  rw [h]
  exact if_neg fun due => Bool.false_ne_true due.1

theorem fallingEdge_of_untracked (p : EdgePin) (h : ∀ l, s.lineTracked l = false) : s.fallingEdge p = s := by
  cases p with
  | cut l => exact if_neg fun due => by rw [h] at due; exact Bool.false_ne_true due.1
  | rej l => exact if_neg fun due => by rw [h] at due; exact Bool.false_ne_true due.1

theorem revEdge_of_untracked {f : Fin 4} (h : s.furnaceTracked f = false) : s.revEdge f = s := by
  unfold State.revEdge
  rw [h]
  exact if_neg fun due => Bool.false_ne_true due.1

theorem stopExpiry_of_pass (h : s.run = .pass) (l : Fin 8) : s.stopExpiry l = s := if_neg fun due => due.1 h

theorem blankingExpiry_of_pass (h : s.run = .pass) (f : Fin 4) : s.blankingExpiry f = s := if_neg fun due => due.1 h

/-! ### Rejects (R82, R83) -/

theorem LineInput.rejectAccepted_iff (x : LineInput) (now : Nat) :
    x.rejectAccepted now = true ↔ ∀ u, x.lastReject = some u → u + 5 ≤ now := by
  unfold LineInput.rejectAccepted
  cases x.lastReject with
  | none => simp
  | some u => simp [Config.rejectSpacing]

/-- R83: a reject in a line's live set. -/
def LineLive.reject (y : LineLive) (weight : Nat) : LineLive :=
  { y.addRejected weight with rejectWare := min 4294967295 (y.rejectWare + 1) }

theorem rejectRise_accepted (sound : s.sound) {l : Fin 8} (h : (s.lineInput l).rejectAccepted s.now = true) :
    (s.rejectRise l).lineInputs = vset s.lineInputs l { s.lineInput l with lastReject := some s.now } ∧
      (s.rejectRise l).lineLive =
        vset s.lineLive l (if s.run = .run then (s.lLive l).reject (s.job l).weight else s.lLive l) := by
  have set : (s.setLineInput l { s.lineInput l with lastReject := some s.now }).sound := sound
  unfold State.rejectRise
  rw [if_pos h]
  simp only [touch_of_sound set, bump_eq]
  by_cases run : s.run = .run
  · rw [if_pos run, if_pos (show (s.setLineInput l _).run = .run from run)]
    exact ⟨rfl, rfl⟩
  · rw [if_neg run, if_neg (show ¬(s.setLineInput l _).run = .run from run)]
    exact ⟨rfl, (vset_vget _ _).symm⟩

theorem rejectRise_bounced {l : Fin 8} (h : ¬(s.lineInput l).rejectAccepted s.now = true) : s.rejectRise l =
    s.setLineInput l { s.lineInput l with rejectBounces := min 4294967295 ((s.lineInput l).rejectBounces + 1) } := by
  unfold State.rejectRise
  rw [if_neg h, bump_eq]

/-- R75, R82: a due rising edge of REJ flips the filtered level and is judged. -/
theorem rejEdge_of_due {l : Fin 8} {c : Filter} {u : Nat} (tracked : s.lineTracked l = true)
    (filter : (s.lineInput l).rej = some c) (level : c.level = false) (since : c.since = some u)
    (held : u + 1 ≤ s.clock.elapsed) : s.rejEdge l =
      (s.setLineInput l { s.lineInput l with rej := some (c.flip (vget s.pins.rej l) s.now) }).rejectRise l := by
  unfold State.rejEdge
  rw [if_pos ⟨tracked, (levelDue_of_held filter since held true).trans (by simp [level])⟩, filter]
  rfl

/-! ### Seconds (R86) -/

/-- R86: one second in a line's live set, by its running condition. -/
def LineLive.second (y : LineLive) (running : Bool) : LineLive :=
  if running then { y with runningSeconds := min 4294967295 (y.runningSeconds + 1) }
  else { y with stoppedSeconds := min 4294967295 (y.stoppedSeconds + 1) }

theorem accrueSecond_of_sound (sound : s.sound) (l : Fin 8) : s.accrueSecond l = { s with
    lineLive := vset s.lineLive l
      (if s.assigned l then (vget s.lineLive l).second (s.lineInput l).running else vget s.lineLive l) } := by
  unfold State.accrueSecond LineLive.second
  simp only [touch_of_sound sound, bump_eq]
  by_cases assigned : s.assigned l = true
  · rw [if_pos assigned, if_pos assigned]
    cases (s.lineInput l).running <;> rfl
  · rw [if_neg assigned, if_neg assigned, vset_vget]

theorem foldl_accrueSecond (sound : s.sound) (l : List (Fin 8)) (v : Vector LineLive 8) :
    l.foldl State.accrueSecond { s with lineLive := v } = { s with lineLive := l.foldl (fun v i => vset v i
      (if s.assigned i then (vget v i).second (s.lineInput i).running else vget v i)) v } := by
  induction l generalizing v with
  | nil => rfl
  | cons i l ih =>
    rw [List.foldl_cons, List.foldl_cons, accrueSecond_of_sound (s := { s with lineLive := v }) sound]
    exact ih _

theorem foldl_accrueSecond_all (sound : s.sound) : (List.finRange 8).foldl State.accrueSecond s = { s with
    lineLive := vgen fun i => if s.assigned i then (s.lLive i).second (s.lineInput i).running else s.lLive i } :=
  (foldl_accrueSecond sound _ s.lineLive).trans (congrArg (fun v => { s with lineLive := v }) (foldl_vset_finRange
    (fun i (y : LineLive) => if s.assigned i then y.second (s.lineInput i).running else y) s.lineLive))

/-- R86: a due second mark, in and out of RUN. -/
theorem secondMark_of_sound (sound : s.sound) (due : s.clock.secondDue = true) :
    s.secondMark = if s.run = .run then
      { s with
        clock := { s.clock with secondDue := false }
        lineLive := vgen fun i => if s.assigned i then (s.lLive i).second (s.lineInput i).running else s.lLive i }
    else { s with clock := { s.clock with secondDue := false } } := by
  unfold State.secondMark
  rw [if_pos due]
  exact if_congr Iff.rfl
    (foldl_accrueSecond_all (s := { s with clock := { s.clock with secondDue := false } }) sound) rfl

end

end Sys2Proof.Machine

open Sys2Proof Sys2Proof.Machine

/-- Settles O34: the filter of each pin senses the level (R75). -/
theorem pinChangeStartsOrDropsAChange : Obligations.PinChangeStartsOrDropsAChange := by
  intro l f b s sensed
  have sense (hold : Nat) : (fun x : Filter => x.sense b hold s.now) = sensed hold := by
    funext x
    dsimp only [sensed, Filter.sense, Filter.ripe]
    by_cases same : b = x.level
    · rw [if_pos same, if_pos same]
      obtain ⟨level, since⟩ := x
      cases since with
      | none => rfl
      | some u =>
        by_cases held : u + hold ≤ s.clock.elapsed <;> simp [State.now, held]
    · rw [if_neg same, if_neg same]
      cases x.since <;> rfl
  simp only [← sense]
  exact ⟨rfl, rfl, rfl, rfl⟩

/-- Settles O36: an accepted reject is booked (`rejectRise_accepted`), another counted. -/
theorem rejectIsJudged : Obligations.RejectIsJudged := by
  intro l s c u sound tracked filter level since held accepted
  have row : exec (.rejEdge l) s = _ := next_settle (rejEdge_of_due tracked filter level since held)
  generalize edge : s.setLineInput l { s.lineInput l with rej := some (c.flip (vget s.pins.rej l) s.now) } = v at row
  have input : v.lineInput l = { s.lineInput l with rej := some (c.flip (vget s.pins.rej l) s.now) } := by
    rw [← edge]
    exact vget_vset_same _ _ _
  have stays : v.run = s.run ∧ v.now = s.now ∧ v.lineLive = s.lineLive ∧ v.jobs = s.jobs ∧ v.sound := by
    rw [← edge]
    exact ⟨rfl, rfl, rfl, rfl, sound⟩
  obtain ⟨run, now, live, jobs, sound'⟩ := stays
  have judged : (v.lineInput l).rejectAccepted v.now = true ↔ accepted := by
    rw [LineInput.rejectAccepted_iff, input, now]
    exact Iff.rfl
  refine ⟨fun good => ⟨_, row, ?_⟩, fun bad => ⟨_, row, ?_⟩⟩
  · obtain ⟨inputs, lives⟩ := rejectRise_accepted sound' (judged.mpr good)
    have after : (settle (v.rejectRise l)).lineInput l = { v.lineInput l with lastReject := some s.now } := by
      rw [settle_lineInput, ← now]
      exact (congrArg (fun x => vget x l) inputs).trans (vget_vset_same _ _ _)
    have booked (i : Fin 8) : (settle (v.rejectRise l)).lLive i =
        if l = i then (if s.run = .run then (s.lLive l).reject (s.job l).weight else s.lLive l) else s.lLive i := by
      rw [settle_lLive]
      refine (congrArg (fun x => vget x i) lives).trans ((vget_vset _ _ _ _).trans ?_)
      unfold State.lLive State.job
      rw [live, jobs, run]
    rw [after, input]
    refine ⟨rfl, rfl, rfl, rfl, ?_, ?_, fun i other => (booked i).trans (if_neg other.symm)⟩
    · rw [booked l, if_pos rfl]
      by_cases running : s.run = .run
      · simp only [running, if_true]
        rfl
      · simp only [running, if_false]
    · rw [booked l, if_pos rfl]
      by_cases running : s.run = .run
      · rw [if_pos running]
        rfl
      · rw [if_neg running]
  · rw [settle_lineInput, settle_lineLive, rejectRise_bounced (mt judged.mp bad), input]
    have after (y : LineInput) : (v.setLineInput l y).lineInput l = y := vget_vset_same _ _ _
    rw [after]
    exact ⟨rfl, rfl, live⟩

/-- Settles O37: each row by its due condition, which PASS never meets. -/
theorem quietLevelChanges : Obligations.QuietLevelChanges := by
  refine ⟨?_, fun l f s pass => ?_⟩
  intro l s c u tracked since held flipped
  refine ⟨fun filter => ?_, fun filter level => ?_, fun filter level => ?_⟩
  · refine next_settle ((if_pos ⟨tracked, levelDue_or_of_held filter since held⟩).trans ?_)
    rw [filter]
    rfl
  · refine next_settle ((if_pos ⟨tracked, (levelDue_of_held filter since held false).trans (by simp [level])⟩).trans ?_)
    rw [filter]
    rfl
  · refine next_settle ((if_pos ⟨tracked, (levelDue_of_held filter since held false).trans (by simp [level])⟩).trans ?_)
    rw [filter]
    rfl
  · have lines (l : Fin 8) := lineTracked_of_pass pass l
    exact ⟨next_settle (cutEdge_of_untracked (lines l)), next_settle (rejEdge_of_untracked (lines l)),
      next_settle (divChange_of_untracked (lines l)), next_settle (fallingEdge_of_untracked _ lines),
      next_settle (fallingEdge_of_untracked _ lines), next_settle (stopExpiry_of_pass pass l),
      next_settle (revEdge_of_untracked (furnaceTracked_of_pass pass f)), next_settle (blankingExpiry_of_pass pass f)⟩

/-- Settles O38: the due stop timer, and the second mark line by line. -/
theorem stopTimerAndSecondMark : Obligations.StopTimerAndSecondMark := by
  intro s sound
  refine ⟨fun l u run running stop due => next_settle ?_, fun due => ?_⟩
  · unfold State.stopExpiry
    rw [if_pos ⟨run, running, by rw [stop]; exact decide_eq_true due⟩, touch_of_sound sound]
    rfl
  · have row : exec .secondMark s = _ := next_settle (secondMark_of_sound sound due)
    by_cases run : s.run = .run
    · rw [if_pos run] at row
      obtain ⟨a, f, p, frame⟩ := next_settled _
      refine ⟨_, row.trans frame, rfl, fun l => ?_, rfl, rfl⟩
      refine (vget_vgen _ l).trans ?_
      simp only [run, true_and]
      rfl
    · rw [if_neg run] at row
      obtain ⟨a, f, p, frame⟩ := next_settled _
      refine ⟨_, row.trans frame, rfl, fun l => ?_, rfl, rfl⟩
      simp only [run, false_and, if_false]
      rfl
end

section
/-! PROOFS. The record queue's commands and the snapshot's (R134, R135, R141, R143, R192, R193). -/

namespace Sys2Proof.Machine

set_option Elab.async false

/-! ### Layouts (R191 to R193) -/

theorem listBytes_map {α β : Type} (f : β → List Byte) (g : α → β) (l : List α) :
    listBytes f (l.map g) = listBytes (fun x => f (g x)) l := by
  simp [listBytes, List.flatMap_map]

/-- R129: the kinds list, kind by kind. -/
theorem Energy.kindsList_eq (e : Energy) : e.kindsList = listBytes (fun x : Nat × Nat => be 1 x.1 ++ be 6 x.2)
    ([(0, e.gas), (1, e.oil), (2, e.elec), (3, e.oxy), (4, e.aux)].filter fun x => decide (x.2 ≠ 0)) := by
  have items : [(0, e.gas), (1, e.oil), (2, e.elec), (3, e.oxy), (4, e.aux)] = Kind.all.map fun k => (k.code, e.get k) :=
    rfl
  rw [items, List.filter_map, listBytes_map]
  rfl

theorem RatioItem.bytes_eq (r : RatioItem) : r.bytes =
    be 1 (maskNat [r.value.isNone, r.lowMass, r.sat, r.rejOverForm]) ++ r.value.elim [] (be 4) := by
  unfold RatioItem.bytes
  cases r.value <;> rfl

theorem intervalBytes_eq (o : Option (Nat × Nat)) : intervalBytes o = o.elim [] fun x => be 2 x.1 ++ be 2 x.2 := by
  cases o <;> rfl

section
variable {s : State}

/-! ### look and take (R134, R135) -/

theorem takeLook_of_sound (sound : s.sound) (p : Byte) : takeLook [p] s =
    (if 8 < p.toNat then ⟨.badarg, []⟩
     else match s.records with
      | [] => ⟨.empty, []⟩
      | r :: _ => if r.lines.length < p.toNat then ⟨.badarg, []⟩ else ⟨.done, r.piece p.toNat⟩, s) := by
  unfold takeLook
  rw [fields_one]
  by_cases far : 8 < p.toNat
  · simp only [far, if_true]
    rfl
  · simp only [far, if_false, State.readOldest, touch_of_sound sound]
    cases s.records with
    | nil => rfl
    | cons r rest =>
      have past : r.pieces ≤ p.toNat ↔ r.lines.length < p.toNat := by
        unfold GroupRecord.pieces
        omega
      simp only [past]
      split <;> rfl

theorem takeArgs_eq (p g : Byte) (n : BitVec 32) :
    packFields [(1, p.toNat), (1, g.toNat), (4, n.toNat)] = [p, g] ++ be 4 n.toNat := by
  simp [packFields]

/-- R153: where nothing is armed and nothing latent, a removal takes the record alone. -/
theorem removeRecord_of_sound (sound : s.sound) (i : Nat) :
    s.removeRecord i = { s with records := s.records.eraseIdx i } := by
  obtain ⟨latent, armed⟩ := sound
  have unarmed : s.check = { s.check with armed := none } := by rw [← armed]
  unfold State.removeRecord
  rw [latent, armed]
  show ({ s with records := _, check := { s.check with armed := none }, latent := [] } : State) = _
  rw [← unarmed, ← latent]

theorem takeTake_of_sound (sound : s.sound) (p g : Byte) (n : BitVec 32) : takeTake ([p, g] ++ be 4 n.toNat) s =
    if 8 < p.toNat ∨ 3 < g.toNat then refuse .badarg s
    else match s.records with
      | [] => refuse .empty s
      | r :: rest =>
        if r.group.val ≠ g.toNat ∨ r.period ≠ n.toNat then ({ status := .state, results := r.identity }, s)
        else if r.lines.length < p.toNat then refuse .badarg s
        else answer ((if p.toNat = r.lines.length then 1#8 else 0#8) :: r.piece p.toNat)
          { s with records := if p.toNat = r.lines.length then rest else s.records } := by
  have read := fields_packFields (l := [(1, p.toNat), (1, g.toNat), (4, n.toNat)]) (by
    simp only [List.forall_mem_cons]
    exact ⟨byte_fits _, byte_fits _, long_fits _, by simp⟩)
  rw [← takeArgs_eq]
  generalize packFields [(1, p.toNat), (1, g.toNat), (4, n.toNat)] = args at read ⊢
  simp only [List.map_cons, List.map_nil] at read
  simp only [takeTake, read]
  by_cases far : 8 < p.toNat ∨ 3 < g.toNat
  · rw [if_pos far, if_pos far]
  · rw [if_neg far, if_neg far]
    simp only [State.readOldest, touch_of_sound sound]
    cases queued : s.records with
    | nil => rfl
    | cons r rest =>
      have past : r.pieces ≤ p.toNat ↔ r.lines.length < p.toNat := by
        unfold GroupRecord.pieces
        omega
      have last : p.toNat + 1 = r.pieces ↔ p.toNat = r.lines.length := by
        unfold GroupRecord.pieces
        omega
      simp only [past, last]
      refine if_congr Iff.rfl rfl (if_congr Iff.rfl rfl ?_)
      by_cases final : p.toNat = r.lines.length
      · simp only [final, decide_true, if_true, removeRecord_of_sound sound, queued]
        rfl
      · have whole : ({ s with records := r :: rest } : State) = s := by rw [← queued]
        simp only [final, decide_false, if_false, Bool.false_eq_true, whole]
        rfl

/-! ### snap and rdsn (R141, R143) -/

theorem takeSnap_of_sound (sound : s.sound) {b : Byte} {f : Fin 4} (h : f.val = b.toNat) : takeSnap [b] s =
    if (s.furnaceCfg f).defined then
      answer (be 1 f.val ++ be 4 (s.snapshotOf f).period ++ flagByte (s.snapshotOf f).closing ++
        (s.snapshotOf f).time.bytes ++ be 1 (s.snapshotOf f).pieces) { s with snapshot := some (s.snapshotOf f) }
    else refuse .badarg s := by
  unfold takeSnap
  rw [fields_one]
  simp only [fin?_of_eq f h, touchAll_of_sound sound]

theorem takeSnap_of_le {b : Byte} (h : 4 ≤ b.toNat) : takeSnap [b] s = refuse .badarg s := by
  unfold takeSnap
  rw [fields_one]
  simp only [fin?_of_le h]

/-- R193: a piece is its leading fields, then the furnace's fields or a line's. -/
theorem Snapshot.piece_eq (x : Snapshot) (p : Nat) : x.piece p =
    be 1 x.group.val ++ be 4 x.period ++ be 1 x.pieces ++ be 1 p ++ x.time.bytes ++
      if p = 0 then x.furnace.bytes else (x.lines[p - 1]?).elim [] SnapLine.bytes := by
  cases p <;> rfl

theorem takeRdsn_eq (b : Byte) : takeRdsn [b] s =
    (if 8 < b.toNat then ⟨.badarg, []⟩
     else match s.snapshot with
      | none => ⟨.state, []⟩
      | some x => if x.lines.length < b.toNat then ⟨.badarg, []⟩ else ⟨.done, x.piece b.toNat⟩, s) := by
  unfold takeRdsn
  rw [fields_one]
  by_cases far : 8 < b.toNat
  · simp only [far, if_true]
    rfl
  · simp only [far, if_false]
    cases s.snapshot with
    | none => rfl
    | some x =>
      have past : x.pieces ≤ b.toNat ↔ x.lines.length < b.toNat := by
        unfold Snapshot.pieces
        omega
      simp only [past]
      split <;> rfl

end

end Sys2Proof.Machine

open Sys2Proof Sys2Proof.Machine

/-- Settles O47: the tables of R134 and R135, and each piece's layout. -/
theorem recordsAreLookedAtAndTaken : Obligations.RecordsAreLookedAtAndTaken := by
  intro src tag p g n s free sound kinds streams ratio signed name head line piece
  have reserved := sound_reserveSlot sound
  have headed (r : GroupRecord) : r.headBytes = head r := by
    unfold GroupRecord.headBytes RecordFlags.bytes heldBytes correctionBytes
    rw [Energy.kindsList_eq, RatioItem.bytes_eq, RatioItem.bytes_eq]
    dsimp only [head, kinds, ratio, signed, streams]
    generalize r.cause = c
    cases c with
    | mark => dsimp only [Cause.code]
    | command => dsimp only [Cause.code]
    | timed => dsimp only [Cause.code]
    | deferred => dsimp only [Cause.code]
  have lined : LineEntry.bytes = line := by
    funext e
    unfold LineEntry.bytes heldBytes correctionBytes
    rw [Energy.kindsList_eq, RatioItem.bytes_eq, RatioItem.bytes_eq, intervalBytes_eq]
  have pieced (r : GroupRecord) (i : Nat) : r.piece i = piece r i := by
    unfold GroupRecord.piece
    rw [lined, headed]
    cases i <;> rfl
  refine ⟨?_, ?_⟩
  · refine (next_taken free (packFields_one _ _) ((runCommand_look _ _ _ _).trans (takeLook_of_sound reserved p))).trans ?_
    have queue : s.reserveSlot.records = s.records := rfl
    rw [queue]
    by_cases far : 8 < p.toNat
    · rw [if_pos far, if_pos far]
      rfl
    · rw [if_neg far, if_neg far]
      cases s.records with
      | nil => rfl
      | cons r rest =>
        dsimp only
        rw [pieced]
        rfl
  · intro cmd
    have row {r : Reply} {e : State} (h : takeTake ([p, g] ++ be 4 n.toNat) s.reserveSlot = (r, e)) :
        exec (.take src tag p g n) s = .next (s.taken cmd r e) :=
      next_taken free (takeArgs_eq p g n) ((runCommand_take _ _ _ _).trans h)
    have eq := takeTake_of_sound reserved p g n
    have same : s.reserveSlot.records = s.records := rfl
    by_cases far : 8 < p.toNat ∨ 3 < g.toNat
    · rw [if_pos far] at eq ⊢
      exact row eq
    · rw [if_neg far] at eq ⊢
      rw [same] at eq
      cases queued : s.records with
      | nil =>
        rw [queued] at eq
        exact row eq
      | cons r rest =>
        rw [queued] at eq
        dsimp only at eq ⊢
        by_cases other : r.group.val ≠ g.toNat ∨ r.period ≠ n.toNat
        · rw [if_pos other] at eq ⊢
          exact row eq
        · rw [if_neg other] at eq ⊢
          by_cases past : r.lines.length < p.toNat
          · rw [if_pos past] at eq ⊢
            exact row eq
          · rw [if_neg past, pieced] at eq
            rw [if_neg past]
            exact row eq

/-- Settles O48: the copy that snap makes, and each piece's layout. -/
theorem snapshotIsTakenAndRead : Obligations.SnapshotIsTakenAndRead := by
  intro src tag b s free sound instant energies streams ends mass furnace line
  have reserved := sound_reserveSlot sound
  have row {r : Reply} {e : State} (h : takeSnap [b] s.reserveSlot = (r, e)) :
      exec (.snap src tag b) s = .next (s.taken ⟨src, 0x31#8, tag, [b]⟩ r e) :=
    next_taken free (packFields_one _ _) ((runCommand_snap _ _ _ _).trans h)
  refine ⟨fun far => row (takeSnap_of_le far), ?_, ?_⟩
  · intro f number x
    have taken := takeSnap_of_sound reserved number
    have cfg : s.reserveSlot.furnaceCfg f = s.furnaceCfg f := rfl
    rw [cfg] at taken
    by_cases defined : (s.furnaceCfg f).defined = true
    · have copied : s.reserveSlot.snapshotOf f = x := rfl
      have pieces : x.pieces = 1 + (s.linesOf f).length := congrArg (1 + ·) (List.length_map _)
      rw [if_pos defined, copied, pieces] at taken
      rw [if_pos defined]
      exact row taken
    · rw [if_neg defined] at taken ⊢
      exact row taken
  · have lined : SnapLine.bytes = line := by
      funext y
      unfold SnapLine.bytes Energy.bytes Mass.bytes Stamp.bytes LiveFlags.bytes heldBytes
      simp only [intervalBytes_eq]
      dsimp only [line, energies, mass, ends, streams, instant]
      simp only [List.append_assoc]
    have headed : FurnaceLive.bytes = furnace := by
      funext y
      unfold FurnaceLive.bytes Energy.bytes Stamp.bytes LiveFlags.bytes heldBytes
      dsimp only [furnace, energies, ends, streams, instant]
      simp only [List.append_assoc]
    refine (next_taken free (packFields_one _ _) ((runCommand_rdsn _ _ _ _).trans (takeRdsn_eq b))).trans ?_
    have copy : s.reserveSlot.snapshot = s.snapshot := rfl
    rw [copy]
    by_cases far : 8 < b.toNat
    · rw [if_pos far, if_pos far]
      rfl
    · rw [if_neg far, if_neg far]
      cases s.snapshot with
      | none => rfl
      | some x =>
        dsimp only
        rw [Snapshot.piece_eq, lined, headed]
        have zero : b.toNat = 0 ↔ b = 0#8 := ⟨fun e => BitVec.eq_of_toNat_eq e, fun e => by rw [e]; rfl⟩
        simp only [zero, be_one]
        rfl
end

section
/-! PROOFS. Eligibility, the level sources and the alert after every event (R163, R179 to R181). -/

namespace Sys2Proof.Machine

set_option Elab.async false

namespace Attention
variable (a : Attention)

/-- R180: among sources in the tie order, the most urgent is before every other one by priority, then by code. -/
theorem mostUrgent_first {l : List Source} (sorted : l.Pairwise (·.code < ·.code)) {z : Source}
    (h : a.mostUrgent l = some z) :
    ∀ y ∈ l, y ≠ z → a.prio z < a.prio y ∨ (a.prio z = a.prio y ∧ z.code < y.code) := by
  induction l generalizing z with
  | nil => cases h
  | cons x l ih =>
    obtain ⟨first, rest⟩ := List.pairwise_cons.mp sorted
    simp only [mostUrgent] at h
    split at h
    · next empty =>
      obtain rfl := a.mostUrgent_eq_none_iff.mp empty
      cases h
      intro y hy ne
      exact absurd (List.mem_singleton.mp hy) ne
    · next u hu =>
      split at h
      · next before =>
        cases h
        exact List.forall_mem_cons.mpr ⟨fun _ => .inl before, ih rest hu⟩
      · next after =>
        cases h
        refine List.forall_mem_cons.mpr ⟨fun ne => absurd rfl ne, fun y hy _ => ?_⟩
        have least := (a.mostUrgent_spec hu).2 y hy
        rcases Nat.lt_or_eq_of_le ((Nat.not_lt.mp after).trans least) with less | tie
        · exact .inl less
        · exact .inr ⟨tie, first y hy⟩

theorem mostUrgent_eq_some_iff {l : List Source} (sorted : l.Pairwise (·.code < ·.code)) {x : Source} :
    a.mostUrgent l = some x ↔
      x ∈ l ∧ ∀ y ∈ l, y ≠ x → a.prio x < a.prio y ∨ (a.prio x = a.prio y ∧ x.code < y.code) := by
  refine ⟨fun h => ⟨(a.mostUrgent_spec h).1, a.mostUrgent_first sorted h⟩, fun ⟨mem, first⟩ => ?_⟩
  cases h : a.mostUrgent l with
  | none => simp [a.mostUrgent_eq_none_iff.mp h] at mem
  | some z =>
    by_contra ne
    have other : z ≠ x := fun e => ne (congrArg some e)
    rcases first z (a.mostUrgent_spec h).1 other with less | ⟨tie, code⟩
    · rcases a.mostUrgent_first sorted h x mem other.symm with less' | ⟨tie', -⟩
      · omega
      · omega
    · rcases a.mostUrgent_first sorted h x mem other.symm with less' | ⟨-, code'⟩
      · omega
      · exact absurd code (lt_asymm code')

/-- R180: eligibility, spelt out. -/
theorem eligible_iff (x : Source) : a.eligible x = true ↔
    a.isPending x = true ∧ a.isMasked x = false ∧ a.prio x ≤ a.threshold ∧
      (∀ y, y ≠ x → a.isInService y = true → a.prio x < a.prio y) ∧
      (a.isInService x = false ∨ (x ≠ .lstp ∧ x ≠ .qful ∧ a.nests x = true)) := by
  have outranks : a.outranks x = true ↔ ∀ y, y ≠ x → a.isInService y = true → a.prio x < a.prio y := by
    refine ⟨fun h y ne serves => Attention.prio_lt_of_outranks h ne serves, fun h => List.all_eq_true.mpr fun y _ => ?_⟩
    by_cases same : y = x
    · simp [same]
    · cases serves : a.isInService y with
      | false => simp
      | true => simp [h y same serves]
  have level : x.isLevel = false ↔ x ≠ .lstp ∧ x ≠ .qful := by cases x <;> simp [Source.isLevel]
  simp only [eligible, Bool.and_eq_true, Bool.or_eq_true, Bool.not_eq_true', decide_eq_true_eq, outranks, level, and_assoc]

end Attention

section
variable (s : State)

theorem State.lstpHolds_iff : s.lstpHolds = true ↔ s.run ≠ .pass ∧ ∃ l : Fin 8, (s.lineCfg l).furnace ≠ none ∧
    (s.lineCfg l).stopAlert = true ∧ (s.lineInput l).running = false := by
  simp [State.lstpHolds, State.assigned, Option.isSome_iff_ne_none, and_assoc]

theorem State.refreshLevels_other {x : Source} (lstp : x ≠ .lstp) (qful : x ≠ .qful) :
    s.refreshLevels.attention.isPending x = s.attention.isPending x := by
  unfold State.refreshLevels Attention.isPending Attention.setPending
  dsimp only
  rw [vget_vset_other _ fun e => qful (Source.code_injective e).symm,
    vget_vset_other _ fun e => lstp (Source.code_injective e).symm]

theorem State.alrtFrame_eq (x : Source) : s.alrtFrame x =
    { dest := s.attention.destination, src := s.address, kind := 7#8
      payload := [BitVec.ofNat 8 x.code.val, BitVec.ofNat 8 (s.attention.prio x)] } := by
  unfold State.alrtFrame
  rw [be_one_eq, be_one_eq]
  rfl

end

end Sys2Proof.Machine

open Sys2Proof Sys2Proof.Machine

/-- Settles O49: the most urgent eligible source, the level conditions, and the branches of the attention unit's work. -/
theorem alertOnChange : Obligations.AlertOnChange := by
  refine ⟨fun a => ?_, fun s => ?_, fun s => ?_⟩
  · intro eligible
    have elects (x : Source) : x ∈ Source.all.filter a.eligible ↔ eligible x :=
      Source.mem_filter_all.trans (a.eligible_iff x)
    have sorted : (Source.all.filter a.eligible).Pairwise (·.code < ·.code) :=
      List.Pairwise.filter _ (by decide)
    refine ⟨?_, fun x => ?_⟩
    · exact a.mostUrgent_eq_none_iff.trans (List.eq_nil_iff_forall_not_mem.trans
        (forall_congr' fun x => not_congr (elects x)))
    · refine (a.mostUrgent_eq_some_iff sorted).trans (and_congr (elects x) ?_)
      exact forall_congr' fun y => imp_congr (elects y) Iff.rfl
  · intro a
    refine ⟨?_, ?_, fun x => s.refreshLevels_other⟩
    · rw [← s.lstpHolds_iff, ← s.refreshLevels_lstp]
    · show s.refreshLevels.attention.isPending .qful = true ↔ _
      rw [s.refreshLevels_qful]
      exact decide_eq_true_iff
  · intro h told alert
    have work : s.attend = alert := by
      unfold State.attend
      dsimp only [alert, told, h]
      cases s.refreshLevels.attention.highest with
      | none => rfl
      | some x =>
        dsimp only
        by_cases same : s.attention.lastAlerted = some x
        · rw [if_pos (show s.refreshLevels.attention.lastAlerted = some x from same), if_neg fun h => h.1 same]
          show s.refreshLevels = { s with attention := { s.refreshLevels.attention with lastAlerted := some x } }
          rw [← same]
          rfl
        · rw [if_neg (show ¬s.refreshLevels.attention.lastAlerted = some x from same)]
          by_cases nowhere : s.attention.destination = 0#8
          · refine (if_pos nowhere).trans ?_
            rw [if_neg fun h => h.2.1 nowhere]
            rfl
          · refine (if_neg nowhere).trans ?_
            rw [State.alrtFrame_eq]
            by_cases room : s.plant.link = .up ∧ s.plant.slots < 6
            · rw [if_pos ⟨same, nowhere, room⟩]
              exact State.pushLocal_of_room _ .plant _ room.1 room.2
            · rw [if_neg fun h => room h.2.2]
              exact if_neg room
    unfold settle
    rw [work]
end

section
/-! PROOFS. Bringing a link up, losing it, configuring and reading it (R155 to R158, R166, R167). -/

namespace Sys2Proof.Machine

set_option Elab.async false

section
variable (s : State) (p : Side) (q : Port)

/-! ### Bringing a link up (R156, R157) -/

theorem Port.judgeBurst_eq {rates : RateSet} (named : (rates.a || rates.b) = true) : q.judgeBurst rates =
    if q.accepted.b && rates.b then { q with link := .up, rate := some .b, rateFault := false, line := .idle .b }
    else if q.accepted.a && rates.a then { q with link := .up, rate := some .a, rateFault := false, line := .idle .a }
    else { q with rateFault := true } := by
  unfold Port.judgeBurst Port.enterUp
  rw [if_pos named]

/-- A port written with the link state it has. -/
theorem Port.link_eq {l : LinkState} (h : q.link = l) : q = { q with link := l } := by rw [← h]

/-! ### Losing a link (R158) -/

theorem dropLink_eq (l : LinkState) : s.dropLink p l =
    (s.setPort p.other { s.port p.other with
      buffer := []
      rx := (s.port p.other).rx.map fun _ => false
      tx := if decide ((s.port p.other).tx = some .forwarded) then none else (s.port p.other).tx
      line := if decide ((s.port p.other).tx = some .forwarded) then .abort else (s.port p.other).line }).setPort p
    { s.port p with
      link := l, tx := none, rx := none, localQueue := [], reserved := 0, buffer := [], rate := none, line := .silent
      aborted := if decide ((s.port p.other).tx = some .forwarded) then min 4294967295 ((s.port p).aborted + 1)
        else (s.port p).aborted } := by
  rw [← bump_eq]
  rfl

/-- R158: a signal lost. -/
theorem signalLoss_of_linked (h : (s.port p).link ≠ .down) : s.signalLoss p = s.dropLink p .down := by
  unfold State.signalLoss
  cases link : (s.port p).link with
  | down => exact absurd link h
  | offer => rfl
  | up => rfl

theorem partnerRestarts_of_up (h : (s.port p).link = .up) (rates : RateSet) : s.partnerRestarts p rates =
    (s.dropLink p .offer).setPort p (((s.dropLink p .offer).port p).judgeBurst rates) := by
  unfold State.partnerRestarts
  rw [h]

theorem port_dropLink (l : LinkState) : (s.dropLink p l).port p =
    { s.port p with
      link := l, tx := none, rx := none, localQueue := [], reserved := 0, buffer := [], rate := none, line := .silent
      aborted := if decide ((s.port p.other).tx = some .forwarded) then min 4294967295 ((s.port p).aborted + 1)
        else (s.port p).aborted } := by
  rw [dropLink_eq, State.port_setPort_same]

theorem dropLink_clock (l : LinkState) : (s.dropLink p l).clock = s.clock := by
  rw [dropLink_eq, State.setPort_clock, State.setPort_clock]

/-! ### The next command (R170) -/

/-- R170: with a command in execution, or no slot free, none is taken. -/
theorem tryTake_of_blocked {s : State} (h : ¬(s.executing = none ∧ s.plant.slots < 6)) : s.tryTake = s := by
  rw [not_and_or, Nat.not_lt] at h
  rcases h with busy | full
  · exact State.tryTake_of_busy (.inl (Option.isSome_iff_ne_none.mpr busy))
  · exact tryTake_of_none_or_full (.inr full)

/-! ### lkcf and lkst (R166, R167) -/

/-- R191: the codes of the ports. -/
def sideByte (p : Side) : Byte := if p = .field then 0#8 else 1#8

theorem side?_sideByte : side? (sideByte p).toNat = some p := by cases p <;> rfl

theorem side?_of_lt {x : Nat} (h : 1 < x) : side? x = none := by
  match x with
  | x + 2 => rfl

theorem rateSet?_of_lt {x : Nat} (h : 3 < x) : rateSet? x = none := by
  match x with
  | x + 4 => rfl

theorem threshold?_of_lt {x : Nat} (h : 3 < x) : threshold? x = none := by
  match x with
  | x + 4 => rfl

theorem threshold?_code (th : Threshold) : threshold? th.code = some th := by cases th <;> rfl

/-- R166: a byte of 1 to 3 names its rates by its bits, one of them at least. -/
theorem rateSet?_of_le {x : Byte} (least : 1 ≤ x.toNat) (most : x.toNat ≤ 3) :
    rateSet? x.toNat = some ⟨x.getLsbD 0, x.getLsbD 1⟩ ∧ (x.getLsbD 0 || x.getLsbD 1) = true := by
  obtain rfl | rfl | rfl : x = 1#8 ∨ x = 2#8 ∨ x = 3#8 := by bv_omega
  · exact ⟨rfl, rfl⟩
  · exact ⟨rfl, rfl⟩
  · exact ⟨rfl, rfl⟩

theorem takeLkcf_of_bad {b x y : Byte} (h : 1 < b.toNat ∨ x = 0#8 ∨ 3 < x.toNat ∨ 3 < y.toNat) :
    takeLkcf [b, x, y] s = refuse .badarg s := by
  unfold takeLkcf
  rw [fields_three]
  dsimp only
  rcases h with far | rfl | far | far
  · rw [side?_of_lt far]
  · cases side? b.toNat with
    | none => rfl
    | some p => cases threshold? y.toNat <;> rfl
  · rw [rateSet?_of_lt far]
    cases side? b.toNat <;> rfl
  · rw [threshold?_of_lt far]
    cases side? b.toNat with
    | none => rfl
    | some p => cases rateSet? x.toNat <;> rfl

theorem takeLkcf_of_good {x y : Byte} {th : Threshold} (least : 1 ≤ x.toNat) (most : x.toNat ≤ 3)
    (code : th.code = y.toNat) : takeLkcf [(sideByte p), x, y] s =
      (⟨.done, []⟩, s.configureLink p ⟨x.getLsbD 0, x.getLsbD 1⟩ th) := by
  obtain ⟨rates, named⟩ := rateSet?_of_le least most
  unfold takeLkcf
  rw [fields_three]
  dsimp only
  rw [side?_sideByte, rates, ← code, threshold?_code]
  exact if_pos named

/-- R166: a port that is not UP at a rate outside the set keeps its link. -/
theorem configureLink_of_kept {rates : RateSet} {th : Threshold}
    (h : (s.port p).link ≠ .up ∨ ∀ r, (s.port p).rate = some r → rates.has r = true) : s.configureLink p rates th =
      s.setPort p { s.port p with accepted := rates, threshold := th, past := (s.port p).threshold :: (s.port p).past } := by
  unfold State.configureLink
  dsimp only
  rw [State.port_setPort_same]
  cases link : (s.port p).link with
  | up =>
    cases rate : (s.port p).rate with
    | none => rfl
    | some r => exact if_pos ((h.resolve_left fun down => down link) r rate)
  | _ => rfl

theorem configureLink_of_dropped {rates : RateSet} {th : Threshold}
    (h : ¬((s.port p).link ≠ .up ∨ ∀ r, (s.port p).rate = some r → rates.has r = true)) : s.configureLink p rates th =
      (s.setPort p { s.port p with
        accepted := rates, threshold := th, past := (s.port p).threshold :: (s.port p).past }).dropLink p .offer := by
  obtain ⟨up, other⟩ := not_or.mp h
  obtain ⟨r, rate⟩ := not_forall.mp other
  obtain ⟨rate, out⟩ := Classical.not_imp.mp rate
  unfold State.configureLink
  dsimp only
  rw [State.port_setPort_same]
  dsimp only
  rw [not_not.mp up, rate]
  exact if_neg out

/-- R167, R161: the bytes held, all that the buffer lists where none of it is being sent (log 8). -/
theorem bytesHeld_of_not_sending (h : s.sending p = false) : s.bytesHeld p = min 2048 (s.port p).listed := by
  have none : s.sentBytes p = 0 := by
    unfold State.sentBytes
    rw [h]
    cases (s.port p).buffer <;> rfl
  unfold State.bytesHeld
  rw [none]
  rfl

theorem takeLkst_of_bad {b y : Byte} (h : 1 < b.toNat ∨ 1 < y.toNat) : takeLkst [b, y] s = refuse .badarg s := by
  unfold takeLkst
  rw [fields_two]
  dsimp only
  rcases h with far | far
  · rw [side?_of_lt far]
  · rw [bool?_of_le far]
    cases side? b.toNat <;> rfl

theorem takeLkst_of_good {y : Byte} (h : y.toNat ≤ 1) : takeLkst [(sideByte p), y] s = (⟨.done, s.linkBytes p⟩,
    if y = 1#8 then
      (if s.sending p then s.drawn else s).setPort p { s.port p with forwarded := 0, aborted := 0, badCheck := 0 }
    else if s.sending p then s.drawn else s) := by
  unfold takeLkst
  rw [fields_two]
  dsimp only
  rw [side?_sideByte]
  obtain rfl | rfl : y = 0#8 ∨ y = 1#8 := by bv_omega
  · rfl
  · rfl

end

end Sys2Proof.Machine

open Sys2Proof Sys2Proof.Machine

/-- Settles O55: the port's write of each signal. -/
theorem linkComesUp : Obligations.LinkComesUp := by
  intro p s q up judged
  have written {x y : Port} (h : x = y) : (.next (settle (s.setPort p x)) : Host.Outcome State Fault Refusal) =
      .next (settle (s.setPort p y)) := by rw [h]
  refine ⟨fun down due => written (if_pos ⟨down, due⟩), fun down r => written ?_, fun rates named => ⟨fun down => written ?_,
    fun offer => written ?_⟩, fun offer => ⟨fun r => written ?_, written ?_⟩⟩
  · unfold Port.firstSignal
    rw [show (s.port p).link = .down from down]
  · unfold Port.firstSignal
    rw [show (s.port p).link = .down from down]
    exact Port.judgeBurst_eq _ named
  · unfold Port.burstReceived
    rw [show (s.port p).link = .offer from offer]
    refine (Port.judgeBurst_eq _ named).trans ?_
    dsimp only [judged]
    rw [← show q.link = .offer from offer]
  · unfold Port.idleDetected
    rw [show (s.port p).link = .offer from offer]
    rfl
  · unfold Port.idleDetected
    rw [show (s.port p).link = .offer from offer]

/-- Settles O56: what the port loses (`dropLink_eq`), the judged burst, and the take event. -/
theorem linkIsLostOrRestarts : Obligations.LinkIsLostOrRestarts := by
  intro p s q o cut lost empty next
  have take {u v : State} (h : u = v) (clock : v.clock = s.clock) : u.tryTake = next v := by
    rw [h]
    dsimp only [next]
    cases waiting : v.commands with
    | nil => exact State.tryTake_of_busy (.inr waiting)
    | cons c rest =>
      dsimp only
      by_cases free : v.executing = none ∧ v.plant.localQueue.length + v.plant.reserved < 6
      · rw [if_pos free, tryTake_of_free waiting free.1 free.2, ← clock]
        rfl
      · rw [if_neg free]
        exact tryTake_of_blocked free
  have emptied (l : LinkState) : s.dropLink p l = lost.setPort p { empty with link := l } := dropLink_eq s p l
  have clock (x : Port) : (lost.setPort p x).clock = s.clock := by
    rw [State.setPort_clock]
    exact State.setPort_clock _ _ _
  refine ⟨fun linked => next_settle (take ?_ (clock _)), fun up rates named => next_settle (take ?_ (clock _))⟩
  · rw [signalLoss_of_linked s p linked, emptied]
  · rw [partnerRestarts_of_up s p up, emptied, State.setPort_setPort, State.port_setPort_same, Port.judgeBurst_eq _ named]

/-- Settles O57: the checks, what lkcf writes and drops, and the fields of lkst. -/
theorem linkIsConfiguredAndRead : Obligations.LinkIsConfiguredAndRead := by
  intro src tag p b x y s free code rs q o cut keeps
  have reserved : s.reserveSlot.port p.other = { s.port p.other with reserved := (s.reserveSlot.port p.other).reserved } := by
    cases p <;> rfl
  have kept : keeps ↔ (s.reserveSlot.port p).link ≠ .up ∨ ∀ r, (s.reserveSlot.port p).rate = some r → rs.has r = true := by
    cases p <;> exact Iff.rfl
  have row {r : Reply} {e : State} {args : List Byte} {b x y : Byte} (spelt : [b, x, y] = args)
      (h : takeLkcf args s.reserveSlot = (r, e)) :
      exec (.lkcf src tag b x y) s = .next (s.taken ⟨src, 0x70#8, tag, args⟩ r e) :=
    next_taken free (by simpa using spelt) ((runCommand_lkcf _ _ _ _).trans h)
  have read {r : Reply} {e : State} {b y : Byte} (h : takeLkst [b, y] s.reserveSlot = (r, e)) :
      exec (.lkst src tag b y) s = .next (s.taken ⟨src, 0x71#8, tag, [b, y]⟩ r e) :=
    next_taken free (by simp) ((runCommand_lkst _ _ _ _).trans h)
  refine ⟨fun bad => row rfl (takeLkcf_of_bad _ bad), fun th least most named => ⟨fun h => ?_, fun h => ?_⟩,
    fun bad => read (takeLkst_of_bad _ bad), fun flag => ?_⟩
  · refine row rfl ((takeLkcf_of_good _ p least most named).trans ?_)
    rw [configureLink_of_kept _ _ (kept.mp h)]
  · refine row rfl ((takeLkcf_of_good _ p least most named).trans ?_)
    rw [configureLink_of_dropped _ _ (mt kept.mpr h), dropLink_eq, State.port_setPort_other, State.port_setPort_same]
    cases p <;> rfl
  · have sending : s.reserveSlot.sending p = cut := by cases p <;> rfl
    refine ⟨s.reserveSlot.bytesHeld p, Nat.min_le_left _ _, fun idle => bytesHeld_of_not_sending _ _ (sending.trans idle),
      (read (takeLkst_of_good _ p flag)).trans ?_⟩
    have drawn : (if s.reserveSlot.sending p then s.reserveSlot.drawn else s.reserveSlot) =
        { s.reserveSlot with fresh := if cut then s.fresh + 1 else s.fresh } := by
      rw [sending]
      cases cut <;> rfl
    rw [drawn]
    cases p <;> rfl
end

section
/-! PROOFS. Transmit arbitration and the ends of transmissions (R161 to R164). -/

namespace Sys2Proof.Machine

set_option Elab.async false

section
variable (s : State) (p : Side)

/-! ### Frames in reception (R161, R162, R166) -/

/-- R166: the start threshold a frame began with. -/
theorem Port.thresholdAt_eq {q : Port} {begun : Begun} {th : Threshold}
    (h : begun.reloads = 0 ∧ th = q.threshold ∨ ∃ n, begun.reloads = n + 1 ∧ q.past[n]? = some th) :
    q.thresholdAt begun = th := by
  unfold Port.thresholdAt
  rcases h with ⟨none, rfl⟩ | ⟨n, some, past⟩
  · rw [none]
    rfl
  · rw [some, List.getElem?_cons_succ, past]
    rfl

theorem State.consumes_eq_false {dest kind : Byte} (h : ¬(kind = 5#8 ∧ dest = s.address)) :
    s.consumes dest kind = false := decide_eq_false h

theorem State.linkedSince_of_up {begun : Begun} (up : (s.port p.other).link = .up) (linked : begun.linked = true) :
    s.linkedSince p begun = true := by
  unfold State.linkedSince
  rw [up, linked]
  rfl

/-- R161: a frame first noticed in reception, with its bytes so far. -/
theorem noteReception_of_new {d b k : Byte} {more : List Byte} {begun : Begun} (up : (s.port p).link = .up)
    (rx : (s.port p).rx = none) (linked : (s.port p.other).link = .up) (since : begun.linked = true)
    (others : ¬(k = 5#8 ∧ d = s.address)) : s.noteReception p ⟨d :: b :: k :: more, begun⟩ =
      s.setPort p { s.port p with
        rx := some true
        buffer := (s.port p).buffer ++ [{ bytes := d :: b :: k :: more, whole := false, good := false
                                          threshold := (s.port p).thresholdAt begun }] } := by
  unfold State.noteReception
  dsimp only
  rw [if_neg fun down => down up, rx]
  refine if_pos ⟨s.linkedSince_of_up p linked since, ?_⟩
  rw [s.consumes_eq_false others]
  rfl

theorem modify_last {α : Type} (l : List α) (x : α) (f : α → α) :
    (l ++ [x]).modify ((l ++ [x]).length - 1) f = l ++ [f x] := by
  rw [List.length_append, List.length_singleton, Nat.add_sub_cancel]
  exact List.modifyTailIdx_add (List.modifyHead f) 0 l [x]

/-- R161: a frame noticed before takes the bytes that have arrived. -/
theorem noteReception_of_stored {d : Byte} {more : List Byte} {begun : Begun} {kept : List Stored} {e : Stored}
    (up : (s.port p).link = .up) (rx : (s.port p).rx = some true) (buffer : (s.port p).buffer = kept ++ [e]) :
    s.noteReception p ⟨d :: more, begun⟩ =
      s.setPort p { s.port p with buffer := kept ++ [{ e with bytes := d :: more }] } := by
  unfold State.noteReception
  dsimp only
  rw [if_neg fun down => down up, rx]
  dsimp only
  rw [buffer, modify_last]

theorem noteReception_of_empty (begun : Begun) : s.noteReception p ⟨[], begun⟩ = s := by
  unfold State.noteReception
  dsimp only
  split
  · rfl
  · cases (s.port p).rx with
    | none => rfl
    | some x => cases x <;> rfl

/-- R162: room, and nothing to test. -/
theorem testRoom_of_room (h : (s.port p).listed ≤ 2048) : s.testRoom p = s := if_pos (.inr h)

/-- R162: the frame in reception leaves the buffer, with an abort mark where it is being sent. -/
theorem overrun_of_stored {kept : List Stored} {e : Stored} (rx : (s.port p).rx = some true)
    (buffer : (s.port p).buffer = kept ++ [e]) : s.overrun p =
      (if (s.port p.other).tx = some .forwarded ∧ kept = [] then
        s.setPort p.other { s.port p.other with tx := none, line := .abort }
       else s).setPort p { s.port p with
        buffer := kept, rx := some false, aborted := min 4294967295 ((s.port p).aborted + 1) } := by
  unfold State.overrun
  dsimp only
  have stored : decide ((s.port p).rx = some true) = true := decide_eq_true rx
  have cut : (s.sending p && true && kept.isEmpty) = true ↔ (s.port p.other).tx = some .forwarded ∧ kept = [] := by
    simp [State.sending]
  rw [stored, if_pos rfl, buffer, List.dropLast_concat, bump_eq]
  simp only [cut]

/-! ### What a transmitter chooses (R163) -/

theorem Stored.ready_iff (e : Stored) : e.ready = true ↔ (e.threshold = .whole ∧ e.whole = true ∧ e.good = true) ∨
    ∃ n, e.threshold.bytes = some n ∧ (e.whole = true ∨ n ≤ e.bytes.length) := by
  unfold Stored.ready
  cases e.threshold <;> simp [Threshold.bytes]

theorem Port.feedsFirst_iff (q : Port) : q.feedsFirst = true ↔ (∃ e ∈ q.buffer, e.whole = true) ∨ 1024 < q.listed := by
  simp [Port.feedsFirst]

theorem Port.headReady_of_cons {q : Port} {e : Stored} {rest : List Stored} (h : q.buffer = e :: rest) :
    q.headReady = e.ready := by
  unfold Port.headReady
  rw [h]

/-- R163: the head is not ready. -/
theorem Port.headReady_eq_false {q : Port} (h : q.buffer = [] ∨ ∃ e more, q.buffer = e :: more ∧ ¬e.ready = true) :
    q.headReady = false := by
  rcases h with empty | ⟨e, more, buffer, waits⟩
  · unfold Port.headReady
    rw [empty]
  · rw [Port.headReady_of_cons buffer]
    exact Bool.eq_false_iff.mpr waits

section
variable {q o : Port}

theorem arbitrate_forwarded (ready : o.headReady = true) (h : o.feedsFirst = true ∨ q.localQueue = []) :
    arbitrate q o = .forwarded := by
  unfold arbitrate
  rw [ready]
  rcases h with first | none
  · rw [first]
    rfl
  · rw [none]
    cases o.feedsFirst <;> rfl

theorem arbitrate_own {f : Frame} {rest : List Frame} (queue : q.localQueue = f :: rest)
    (h : o.feedsFirst = false ∨ o.headReady = false) : arbitrate q o = .own := by
  unfold arbitrate
  rw [queue]
  rcases h with after | waits
  · rw [after]
    rfl
  · rw [waits, Bool.and_false]
    rfl

theorem arbitrate_idle (none : q.localQueue = []) (waits : o.headReady = false) : arbitrate q o = .idle := by
  unfold arbitrate
  rw [none, waits, Bool.and_false]
  rfl

end

section
variable (up : (s.port p).link = .up) (tx : (s.port p).tx = none)
include up tx

theorem transmit_forwarded (h : arbitrate (s.port p) (s.port p.other) = .forwarded) : s.transmit p =
    s.setPort p { s.port p with tx := some .forwarded, line := .frame (s.port p.other).headBytes } := by
  unfold State.transmit
  dsimp only
  rw [if_pos ⟨up, tx⟩, h]

theorem transmit_own {f : Frame} {rest : List Frame} (queue : (s.port p).localQueue = f :: rest)
    (h : arbitrate (s.port p) (s.port p.other) = .own) : s.transmit p =
    s.setPort p { s.port p with localQueue := rest, tx := some (.own f.bytes), line := .frame f.bytes } := by
  unfold State.transmit
  dsimp only
  rw [if_pos ⟨up, tx⟩, h]
  dsimp only
  rw [queue]

theorem transmit_idle {r : Rate} (rate : (s.port p).rate = some r)
    (h : arbitrate (s.port p) (s.port p.other) = .idle) : s.transmit p =
    s.setPort p { s.port p with line := .idle r } := by
  unfold State.transmit
  dsimp only
  rw [if_pos ⟨up, tx⟩, h]
  dsimp only
  rw [rate]
  rfl

end

/-- R163: a transmitter that sends idle starts what it chooses. -/
theorem startIdle_of_idle {r : Rate} (line : (s.port p).line = .idle r)
    (h : arbitrate (s.port p) (s.port p.other) ≠ .idle) : s.startIdle p = s.transmit p := by
  have idles : (s.port p).idles = true := by
    unfold Port.idles
    rw [line]
  exact if_pos ⟨idles, h⟩

theorem startIdle_of_busy (h : ∀ r, (s.port p).line ≠ .idle r) : s.startIdle p = s := by
  have busy : (s.port p).idles = false := by
    unfold Port.idles
    cases line : (s.port p).line with
    | idle r => exact absurd line (h r)
    | _ => rfl
  exact if_neg fun idles => by rw [busy] at idles; exact Bool.false_ne_true idles.1

theorem startIdle_of_arbitrate (h : arbitrate (s.port p) (s.port p.other) = .idle) : s.startIdle p = s :=
  if_neg fun idles => idles.2 h

/-! ### Ends of transmissions (R161, R162) -/

theorem frameSent_own {bytes : List Byte} (tx : (s.port p).tx = some (.own bytes)) :
    s.frameSent p = s.setPort p { s.port p with tx := none, line := .frame bytes } := by
  unfold State.frameSent
  dsimp only
  rw [tx]

theorem frameSent_forwarded {e : Stored} {rest : List Stored} (tx : (s.port p).tx = some .forwarded)
    (buffer : (s.port p.other).buffer = e :: rest) (whole : e.whole = true) : s.frameSent p =
      (s.setPort p { s.port p with tx := none, line := .frame e.bytes }).setPort p.other { s.port p.other with
        buffer := rest
        forwarded := if e.good then min 4294967295 ((s.port p.other).forwarded + 1)
          else (s.port p.other).forwarded } := by
  unfold State.frameSent
  dsimp only
  rw [tx]
  dsimp only
  rw [buffer]
  dsimp only
  rw [if_pos whole, bump_eq]

theorem forwardUnderrun_of_sending {e : Stored} {rest : List Stored} (tx : (s.port p.other).tx = some .forwarded)
    (buffer : (s.port p).buffer = e :: rest) (part : e.whole = false) : s.forwardUnderrun p =
      (s.setPort p.other { s.port p.other with tx := none, line := .abort }).setPort p { s.port p with
        buffer := rest, rx := (s.port p).rx.map fun _ => false
        aborted := min 4294967295 ((s.port p).aborted + 1) } := by
  have cut : (s.sending p && !e.whole) = true := by
    unfold State.sending
    rw [tx, part]
    rfl
  unfold State.forwardUnderrun
  dsimp only
  rw [buffer]
  dsimp only
  rw [if_pos cut, bump_eq]

/-- R162: a frame in reception past the end of the buffer, once noticed. -/
theorem forwardOverrun_of_noticed {arrived : Arrival} {kept : List Stored} {e : Stored}
    (noticed : s.noteReception p arrived = s.setPort p { s.port p with rx := some true, buffer := kept ++ [e] })
    (full : 2048 < (kept.map fun e => e.bytes.length).sum + e.bytes.length) : s.forwardOverrun p arrived =
      (if (s.port p.other).tx = some .forwarded ∧ kept = [] then
        s.setPort p.other { s.port p.other with tx := none, line := .abort }
       else s).setPort p { s.port p with
        buffer := kept, rx := some false, aborted := min 4294967295 ((s.port p).aborted + 1) } := by
  unfold State.forwardOverrun
  dsimp only
  rw [noticed]
  generalize h : s.setPort p { s.port p with rx := some true, buffer := kept ++ [e] } = u
  have port : u.port p = { s.port p with rx := some true, buffer := kept ++ [e] } := by
    rw [← h, State.port_setPort_same]
  have other : u.port p.other = s.port p.other := by rw [← h, State.port_setPort_other]
  have past : 2048 < (u.port p).listed := by
    rw [port]
    simpa [Port.listed] using full
  have rx : (u.port p).rx = some true := by rw [port]
  have buffer : (u.port p).buffer = kept ++ [e] := by rw [port]
  rw [rx]
  dsimp only
  rw [if_pos past, overrun_of_stored u p rx buffer, other, port, ← h]
  split
  · cases p <;> rfl
  · exact State.setPort_setPort _ _ _ _

end

end Sys2Proof.Machine

open Sys2Proof Sys2Proof.Machine

/-- Settles O59: each end of a transmission, and the overrun of a frame in reception. -/
theorem transmissionEnds : Obligations.TransmissionEnds := by
  intro p s q o
  refine ⟨fun bytes tx => next_settle (frameSent_own s p tx),
    fun e rest tx buffer whole => next_settle (frameSent_forwarded s p tx buffer whole),
    fun e rest tx buffer part => next_settle (forwardUnderrun_of_sending s p tx buffer part),
    fun d b k more begun kept up reception full => next_settle ?_⟩
  rcases reception with ⟨rx, buffer, linked, since, others⟩ | ⟨rx, e, buffer⟩
  · let e : Stored :=
      { bytes := d :: b :: k :: more, whole := false, good := false, threshold := (s.port p).thresholdAt begun }
    refine forwardOverrun_of_noticed s p (e := e)
      ((noteReception_of_new s p up rx linked since others).trans ?_) full
    rw [show (s.port p).buffer = kept from buffer]
  · refine forwardOverrun_of_noticed s p (e := { e with bytes := d :: b :: k :: more })
      ((noteReception_of_stored s p up rx buffer).trans ?_) full
    rw [← show (s.port p).rx = some true from rx]

/-- Settles O58: the choice of the transmitter, at a gap and from idle, then the take event. -/
theorem transmitterChooses : Obligations.TransmitterChooses := by
  intro p s up tx q o next first ready starts
  have take {u v : State} (h : u = v) (clock : v.clock = s.clock) : u.tryTake = next v := by
    rw [h]
    dsimp only [next]
    cases waiting : v.commands with
    | nil => exact State.tryTake_of_busy (.inr waiting)
    | cons c rest =>
      dsimp only
      by_cases free : v.executing = none ∧ v.plant.localQueue.length + v.plant.reserved < 6
      · rw [if_pos free, tryTake_of_free waiting free.1 free.2, ← clock]
        rfl
      · rw [if_neg free]
        exact tryTake_of_blocked free
  have readies (e : Stored) : e.ready = true ↔ ready e := by
    obtain ⟨bytes, whole, good, threshold⟩ := e
    rw [Stored.ready_iff]
    cases threshold <;> simp [ready, Threshold.bytes]
  have firsts : o.feedsFirst = true ↔ first := o.feedsFirst_iff
  have waits (h : o.buffer = [] ∨ ∃ e more, o.buffer = e :: more ∧ ¬ready e) : o.headReady = false :=
    Port.headReady_eq_false (h.imp_right fun ⟨e, more, buffer, not⟩ => ⟨e, more, buffer, mt (readies e).mp not⟩)
  have quiet (begun : Begun) (room : o.listed ≤ 2048) : s.transmitStart p ⟨[], begun⟩ = s.transmit p := by
    unfold State.transmitStart
    rw [noteReception_of_empty, testRoom_of_room s p.other room]
  have started {x : Port} (sends : s.transmit p = s.setPort p x) (chosen : arbitrate q o ≠ .idle) : starts x := by
    refine ⟨fun begun room => next_settle (take ((quiet begun room).trans sends) (State.setPort_clock _ _ _)),
      fun ⟨r, line⟩ => (startIdle_of_idle s p line chosen).trans sends⟩
  refine ⟨fun e rest buffer leaves free => ?_, fun f rest queue free => ?_, fun none waiting => ?_,
    startIdle_of_busy s p, ?_⟩
  · have chosen : arbitrate q o = .forwarded :=
      arbitrate_forwarded ((Port.headReady_of_cons buffer).trans ((readies e).mpr leaves)) (free.imp_left firsts.mpr)
    have head : o.headBytes = e.bytes := by
      unfold Port.headBytes
      rw [buffer]
      rfl
    refine started ((transmit_forwarded s p up tx chosen).trans ?_) (by rw [chosen]; decide)
    rw [show (s.port p.other).headBytes = e.bytes from head]
  · have chosen : arbitrate q o = .own :=
      arbitrate_own queue (free.imp (fun later => Bool.eq_false_iff.mpr (mt firsts.mp later)) waits)
    exact started (transmit_own s p up tx queue chosen) (by rw [chosen]; decide)
  · have chosen : arbitrate q o = .idle := arbitrate_idle none (waits waiting)
    exact ⟨startIdle_of_arbitrate s p chosen, fun begun r room rate =>
      next_settle (take ((quiet begun room).trans (transmit_idle s p up tx rate chosen)) (State.setPort_clock _ _ _))⟩
  · intro d b k more begun th linked rx buffer none others short since threshold e leaves
    refine next_settle (take ?_ ?_)
    · have noticed : s.noteReception p.other ⟨d :: b :: k :: more, begun⟩ =
          s.setPort p.other { o with rx := some true, buffer := [e] } := by
        refine (noteReception_of_new s p.other linked rx ?_ since others).trans ?_
        · rw [Side.other_other]
          exact up
        · rw [show (s.port p.other).buffer = [] from buffer, Port.thresholdAt_eq (q := s.port p.other) threshold]
          rfl
      unfold State.transmitStart
      rw [noticed]
      generalize h : s.setPort p.other { o with rx := some true, buffer := [e] } = v
      have other : v.port p.other = { o with rx := some true, buffer := [e] } := by rw [← h, State.port_setPort_same]
      have same : v.port p = q := by rw [← h, State.port_other_setPort]
      have room : (v.port p.other).listed ≤ 2048 := by
        rw [other]
        show (d :: b :: k :: more).length + 0 ≤ 2048
        simp only [List.length_cons]
        omega
      have chosen : arbitrate (v.port p) (v.port p.other) = .forwarded := by
        rw [other, same]
        exact arbitrate_forwarded ((readies e).mpr leaves) (.inr none)
      rw [testRoom_of_room v p.other room, transmit_forwarded v p (by rw [same]; exact up) (by rw [same]; exact tx) chosen,
        other, same]
      rfl
    · rw [State.setPort_clock, State.setPort_clock]
end

section
/-! PROOFS. What a frame handed to its block leaves of the ports: their storing of frames (R160, R161). -/

namespace Sys2Proof.Machine

set_option Elab.async false

/-- What a port stores and counts of the frames it receives (R155, R161, R162). -/
def Port.storing (q : Port) : Option Bool × List Stored × Nat × Nat × Nat :=
  (q.rx, q.buffer, q.aborted, q.forwarded, q.badCheck)

/-- What both ports store and count, and the free values drawn for it (log 8). -/
def State.storing (s : State) :
    Nat × (Option Bool × List Stored × Nat × Nat × Nat) × (Option Bool × List Stored × Nat × Nat × Nat) :=
  (s.fresh, s.field.storing, s.plant.storing)

section
variable (s : State)

theorem State.port_storing {s t : State} (h : t.storing = s.storing) (p : Side) :
    t.fresh = s.fresh ∧ (t.port p).storing = (s.port p).storing := by
  cases p
  · exact ⟨congrArg (·.1) h, congrArg (·.2.1) h⟩
  · exact ⟨congrArg (·.1) h, congrArg (·.2.2) h⟩

theorem foldl_storing {α : Type} {f : State → α → State} (h : ∀ t a, (f t a).storing = t.storing) (l : List α) (s : State) :
    (l.foldl f s).storing = s.storing := by
  induction l generalizing s with
  | nil => rfl
  | cons a l ih => exact (ih _).trans (h s a)

/-! ### Reads and bookings -/

@[simp] theorem State.touch_storing (it : Item) : (s.touch it).storing = s.storing :=
  (congrArg State.storing (touch_frame s it) :)

@[simp] theorem State.touchAll_storing (its : List Item) : (s.touchAll its).storing = s.storing :=
  foldl_storing State.touch_storing its s

@[simp] theorem State.setStreamLive_storing (k : Fin 48) (st : Stream) (v : StreamLive) :
    (s.setStreamLive k st v).storing = s.storing := rfl

@[simp] theorem State.raiseStream_storing (k : Fin 48) (c : StreamCause) : (s.raiseStream k c).storing = s.storing := rfl

@[simp] theorem State.book_storing (e : StreamEntry) (w : Nat) (est : Bool) : (s.book e w est).storing = s.storing :=
  (congrArg State.storing (s.book_frame e w est) :)

@[simp] theorem State.bookCorrection_storing (e : StreamEntry) (k : Int) : (s.bookCorrection e k).storing = s.storing :=
  (congrArg State.storing (s.bookCorrection_frame e k) :)

@[simp] theorem State.addHeld_storing (k : Fin 48) (e : StreamEntry) : (s.addHeld k e).storing = s.storing :=
  (congrArg State.storing (s.addHeld_frame k e) :)

@[simp] theorem State.estimate_storing (k : Fin 48) (amount : Nat) : (s.estimate k amount).storing = s.storing := by
  unfold State.estimate
  split
  · rfl
  · split
    · simp
    · rfl

@[simp] theorem State.bookSample_storing (e : StreamEntry) (v : StreamLive) (m : Measured) :
    (s.bookSample e v m).1.storing = s.storing := by
  unfold State.bookSample State.bookDelta State.bookReturn
  dsimp only
  split
  · split
    · split <;> simp
    · split <;> simp
  · rfl

@[simp] theorem State.countingSample_storing (k : Fin 48) (st : Stream) (f : Format) (smp : Sample) :
    (s.countingSample k st f smp).storing = s.storing := by
  unfold State.countingSample
  dsimp only
  split
  · simp
  · split <;> simp

@[simp] theorem State.gobValue_storing (k : Fin 48) (value : Nat) : (s.gobValue k value).storing = s.storing := by
  unfold State.gobValue
  split
  · rfl
  · split
    · rfl
    · next l _ =>
      have read := State.touch_storing s (.config (.line l))
      dsimp only
      split
      · exact read
      · split
        · rw [State.addHeld_storing]
          exact (State.touch_storing _ _).trans read
        · exact read

/-! ### Samples and hellos (R29 to R38) -/

@[simp] theorem State.pushLocal_storing (p : Side) (f : Frame) : (s.pushLocal p f).storing = s.storing := by
  unfold State.pushLocal
  split
  · cases p <;> rfl
  · rfl

section
variable (k : Fin 48) (st : Stream) (v : StreamLive)

@[simp] theorem State.faultFormat_storing : (s.faultFormat k st v).storing = s.storing := rfl

@[simp] theorem State.takeBase_storing (f : Format) (smp : Sample) : (s.takeBase k st v f smp).storing = s.storing := by
  unfold State.takeBase
  dsimp only
  split <;> simp

@[simp] theorem State.sampleInWait_storing (smp : Sample) : (s.sampleInWait k st smp).storing = s.storing := by
  unfold State.sampleInWait
  split <;> simp

@[simp] theorem State.sampleInSelect_storing (smp : Sample) : (s.sampleInSelect k st smp).storing = s.storing := by
  unfold State.sampleInSelect
  split
  · split <;> simp
  · rfl

@[simp] theorem State.enterStale_storing : (s.enterStale k).storing = s.storing := by
  unfold State.enterStale
  split
  · rfl
  · simp

@[simp] theorem State.formatFaultBound_storing : (s.formatFaultBound k st).storing = s.storing := by
  unfold State.formatFaultBound
  dsimp only
  split <;> simp

@[simp] theorem State.handOver_storing (f : Format) (smp : Sample) : (s.handOver k st f smp).storing = s.storing := by
  unfold State.handOver
  dsimp only
  split <;> simp

@[simp] theorem State.sampleWhileBound_storing (smp : Sample) : (s.sampleWhileBound k st smp).storing = s.storing := by
  unfold State.sampleWhileBound
  split
  · split
    · split <;> simp
    · simp
  · split <;> simp

@[simp] theorem State.streamSample_storing (smp : Sample) : (s.streamSample k smp).storing = s.storing := by
  unfold State.streamSample
  split
  · rfl
  · split <;> simp

@[simp] theorem State.offerFormat_storing (f : Format) : (s.offerFormat k st v f).storing = s.storing := by
  unfold State.offerFormat
  simp

@[simp] theorem State.heloInWait_storing (named : FormatSet) : (s.heloInWait k st v named).storing = s.storing := by
  unfold State.heloInWait
  split
  · rfl
  · split <;> simp

@[simp] theorem State.heloInSelect_storing (named : FormatSet) : (s.heloInSelect k st named).storing = s.storing := by
  unfold State.heloInSelect
  split <;> simp

@[simp] theorem State.restart_storing (named : FormatSet) : (s.restart k st named).storing = s.storing := by
  unfold State.restart
  simp

@[simp] theorem State.streamHelo_storing (named : FormatSet) : (s.streamHelo k named).storing = s.storing := by
  unfold State.streamHelo
  split
  · rfl
  · split <;> simp

end

@[simp] theorem State.hear_storing (src : Byte) (ch : Nat) (kind : Byte) : (s.hear src ch kind).storing = s.storing := by
  unfold State.hear
  dsimp only
  split <;> rfl

theorem State.matchFrame_storing (src : Byte) (ch : Nat) (kind : Byte) {act : Fin 48 → State → State}
    (h : ∀ k t, (act k t).storing = t.storing) : (s.matchFrame src ch kind act).storing = s.storing := by
  unfold State.matchFrame
  split
  · rfl
  · split
    · simp
    · split
      · rw [h, State.touch_storing]
      · simp

@[simp] theorem State.tapSmpl_storing (src : Byte) (payload : List Byte) : (s.tapSmpl src payload).storing = s.storing := by
  unfold State.tapSmpl
  split
  · rfl
  · exact s.matchFrame_storing _ _ _ fun k t => t.streamSample_storing k _

@[simp] theorem State.tapHelo_storing (src : Byte) (payload : List Byte) : (s.tapHelo src payload).storing = s.storing := by
  unfold State.tapHelo
  split
  · rfl
  · exact s.matchFrame_storing _ _ _ fun k t => t.streamHelo_storing k _

/-! ### Marks (R105) -/

@[simp] theorem State.trigger_storing (g : Fin 4) (cause : Cause) : (s.trigger g cause).storing = s.storing := by
  unfold State.trigger State.swap
  split
  · rfl
  · exact State.touchAll_storing _ _

@[simp] theorem State.takeMark_storing (src : Byte) (payload : List Byte) : (s.takeMark src payload).storing = s.storing := by
  unfold State.takeMark
  split
  · rfl
  · split
    · dsimp only
      rw [foldl_storing fun t g => t.trigger_storing g .mark, State.touchAll_storing]
      split <;> simp
    · rfl

/-! ### What follows an event (R163, R181) -/

theorem State.setPort_storing {p : Side} {q : Port} (h : q.storing = (s.port p).storing) :
    (s.setPort p q).storing = s.storing := by
  cases p
  · exact congrArg (fun x => (s.fresh, x, s.plant.storing)) h
  · exact congrArg (fun x => (s.fresh, s.field.storing, x)) h

theorem State.transmit_storing (p : Side) : (s.transmit p).storing = s.storing := by
  unfold State.transmit
  dsimp only
  split
  · split
    · exact s.setPort_storing rfl
    · split
      · rfl
      · exact s.setPort_storing rfl
    · exact s.setPort_storing rfl
  · rfl

theorem State.startIdle_storing (p : Side) : (s.startIdle p).storing = s.storing := by
  unfold State.startIdle
  split
  · exact s.transmit_storing p
  · rfl

theorem State.attend_storing : s.attend.storing = s.storing := by
  unfold State.attend
  dsimp only
  split
  · rfl
  · split
    · rfl
    · split
      · rfl
      · exact State.pushLocal_storing _ _ _

@[simp] theorem settle_storing : (settle s).storing = s.storing := by
  unfold settle
  rw [State.startIdle_storing, State.startIdle_storing, State.attend_storing]

end

end Sys2Proof.Machine
end

section
/-! PROOFS. The forwarding of frames, good and bad (R159 to R162, R166). -/

namespace Sys2Proof.Machine

set_option Elab.async false

section
variable (s : State) (p : Side)

/-! ### An accepted frame on its way to the other port (R161) -/

/-- R161: a frame not stored, the other port not UP since it began. -/
theorem forward_of_unlinked {f : Frame} {begun : Begun} (rx : (s.port p).rx = none)
    (h : ¬((s.port p.other).link = .up ∧ begun.linked = true)) : s.forward p f begun = s := by
  have since : s.linkedSince p begun = false := by
    rw [Bool.eq_false_iff]
    intro linked
    simp only [State.linkedSince, Bool.and_eq_true, decide_eq_true_eq] at linked
    exact h linked
  unfold State.forward
  rw [rx]
  exact if_neg fun stored => by rw [since] at stored; exact Bool.false_ne_true stored.1

/-- The rest of a frame that is not stored. -/
theorem forward_of_unstored {f : Frame} {begun : Begun} (rx : (s.port p).rx = some false) :
    s.forward p f begun = s.setPort p { s.port p with rx := none } := by
  unfold State.forward
  rw [rx]

/-- A port that has taken a frame whole, before the test for room. -/
def Port.taking (q : Port) (f : Frame) (th : Threshold) : Port :=
  { q with
    rx := some true
    buffer := q.buffer ++ [{ bytes := f.bytes, whole := true, good := true, threshold := th }] }

theorem Port.listed_taking (q : Port) (f : Frame) (th : Threshold) :
    (q.taking f th).listed = q.listed + f.bytes.length := by
  simp [Port.listed, Port.taking]

/-- R161: a frame stored whole, where there is room. -/
theorem forward_of_new {f : Frame} {begun : Begun} {th : Threshold} (rx : (s.port p).rx = none)
    (linked : (s.port p.other).link = .up ∧ begun.linked = true) (others : ¬(f.kind = 5#8 ∧ f.dest = s.address))
    (threshold : (s.port p).thresholdAt begun = th) : s.forward p f begun =
      ((s.setPort p ((s.port p).taking f th)).testRoom p).setPort p
        { ((s.setPort p ((s.port p).taking f th)).testRoom p).port p with rx := none } := by
  unfold State.forward
  rw [rx]
  dsimp only
  unfold State.storeWhole
  dsimp only
  rw [if_pos ⟨s.linkedSince_of_up p linked.1 linked.2, by rw [s.consumes_eq_false others]; rfl⟩, threshold]
  rfl

section
variable (q : Port) (f : Frame) (th : Threshold)

theorem testRoom_taking_of_room (room : q.listed + f.bytes.length ≤ 2048) :
    (s.setPort p (q.taking f th)).testRoom p = s.setPort p (q.taking f th) := by
  refine testRoom_of_room _ _ ?_
  rw [State.port_setPort_same, Port.listed_taking]
  exact room

/-- R162: the whole frame is not stored, but counted. -/
theorem overrun_taking (whole : (s.port p.other).tx ≠ some .forwarded ∨ q.buffer ≠ []) :
    (s.setPort p (q.taking f th)).overrun p =
      s.setPort p { q with rx := some false, aborted := min 4294967295 (q.aborted + 1) } := by
  have port : (s.setPort p (q.taking f th)).port p = q.taking f th := s.port_setPort_same p _
  rw [overrun_of_stored (kept := q.buffer) _ _ (by rw [port]; rfl) (by rw [port]; rfl), State.port_setPort_other, port,
    if_neg, State.setPort_setPort]
  · rfl
  · rintro ⟨sending, empty⟩
    exact whole.elim (fun other => other sending) fun held => held empty

theorem testRoom_taking_of_full (full : 2048 < q.listed + f.bytes.length) (idle : (s.port p.other).tx ≠ some .forwarded) :
    (s.setPort p (q.taking f th)).testRoom p =
      s.setPort p { q with rx := some false, aborted := min 4294967295 (q.aborted + 1) } := by
  unfold State.testRoom
  have sending : (s.setPort p (q.taking f th)).sending p = false := by
    unfold State.sending
    rw [State.port_setPort_other]
    exact decide_eq_false idle
  have port : (s.setPort p (q.taking f th)).port p = q.taking f th := s.port_setPort_same p _
  rw [port, Port.listed_taking, if_neg, sending]
  · exact overrun_taking s p q f th (.inl idle)
  · rintro (other | room)
    · exact other rfl
    · exact absurd room (Nat.not_le.mpr full)

/-- R162, R161: beside a head that is being sent the room is a free value's (log 8). -/
theorem testRoom_taking_of_sending {e : Stored} {rest : List Stored} (full : 2048 < q.listed + f.bytes.length)
    (tx : (s.port p.other).tx = some .forwarded) (buffer : q.buffer = e :: rest) :
    (s.setPort p (q.taking f th)).testRoom p =
      if q.listed + f.bytes.length - Config.freeNat s.fresh % (e.bytes.length + 1) ≤ 2048 then
        ({ s with fresh := s.fresh + 1 } : State).setPort p (q.taking f th)
      else ({ s with fresh := s.fresh + 1 } : State).setPort p
        { q with rx := some false, aborted := min 4294967295 (q.aborted + 1) } := by
  have port : (s.setPort p (q.taking f th)).port p = q.taking f th := s.port_setPort_same p _
  have sending : (s.setPort p (q.taking f th)).sending p = true := by
    unfold State.sending
    rw [State.port_setPort_other]
    exact decide_eq_true tx
  have sent : (s.setPort p (q.taking f th)).sentBytes p = Config.freeNat s.fresh % (e.bytes.length + 1) := by
    unfold State.sentBytes
    rw [port, sending, State.setPort_fresh]
    dsimp only [Port.taking]
    rw [buffer]
    rfl
  have drawn : (s.setPort p (q.taking f th)).drawn =
      ({ s with fresh := s.fresh + 1 } : State).setPort p (q.taking f th) := by cases p <;> rfl
  have other : (({ s with fresh := s.fresh + 1 } : State).port p.other) = s.port p.other := by cases p <;> rfl
  unfold State.testRoom
  rw [sent, sending, port, Port.listed_taking, if_neg, if_pos rfl, drawn]
  · refine if_congr Iff.rfl rfl ?_
    exact overrun_taking _ p q f th (.inr (by rw [buffer]; simp))
  · rintro (other | room)
    · exact other rfl
    · exact absurd room (Nat.not_le.mpr full)

end

/-- R161: a frame whose storing has begun is completed, or ends as it stands while it is being sent. -/
theorem endStored_of_kept {bytes : List Byte} {good : Bool} {kept : List Stored} {e : Stored}
    (buffer : (s.port p).buffer = kept ++ [e])
    (stays : good = true ∨ (s.port p.other).tx = some .forwarded ∧ kept = [])
    (room : (kept.map fun x => x.bytes.length).sum + bytes.length ≤ 2048) : s.endStored p bytes good =
      s.setPort p { s.port p with
        rx := none, buffer := kept ++ [{ e with bytes := bytes, whole := true, good := good }] } := by
  unfold State.endStored
  have keeps : ¬(!good && !(s.sending p && decide ((s.port p).buffer.length = 1))) = true := by
    rcases stays with rfl | ⟨tx, rfl⟩
    · simp
    · simp [State.sending, tx, buffer]
  dsimp only
  rw [if_neg keeps, buffer, modify_last, testRoom_of_room, State.port_setPort_same, State.setPort_setPort]
  rw [State.port_setPort_same]
  simpa [Port.listed] using room

/-- R159, R161: what is stored of a bad frame leaves the buffer, where it is not being sent. -/
theorem endStored_of_bad {bytes : List Byte} {kept : List Stored} {e : Stored} (buffer : (s.port p).buffer = kept ++ [e])
    (leaves : (s.port p.other).tx ≠ some .forwarded ∨ kept ≠ []) : s.endStored p bytes false =
      s.setPort p { s.port p with rx := none, buffer := kept } := by
  unfold State.endStored
  have drops : (!false && !(s.sending p && decide ((s.port p).buffer.length = 1))) = true := by
    rcases leaves with tx | held
    · simp [State.sending, tx]
    · simp [buffer, held]
  dsimp only
  rw [if_pos drops, buffer, List.dropLast_concat]

theorem forward_of_stored {f : Frame} {begun : Begun} {kept : List Stored} {e : Stored} (rx : (s.port p).rx = some true)
    (buffer : (s.port p).buffer = kept ++ [e])
    (room : (kept.map fun x => x.bytes.length).sum + f.bytes.length ≤ 2048) : s.forward p f begun =
      s.setPort p { s.port p with
        rx := none, buffer := kept ++ [{ e with bytes := f.bytes, whole := true, good := true }] } := by
  unfold State.forward
  rw [rx]
  exact endStored_of_kept s p buffer (.inl rfl) room

/-! ### The tap (R160) -/

/-- R160: a frame that is no block's. -/
theorem tap_of_untapped {f : Frame} (h : ¬((p = .field ∧ (f.kind = 1#8 ∨ f.kind = 2#8)) ∨
    (f.kind = 4#8 ∧ (f.dest = s.address ∨ f.dest = 255#8)) ∨ (f.kind = 5#8 ∧ f.dest = s.address))) : s.tap p f = s := by
  obtain ⟨field, rest⟩ := not_or.mp h
  obtain ⟨mark, cmnd⟩ := not_or.mp rest
  unfold State.tap
  by_cases smpl : f.kind = kindSmpl
  · rw [if_pos smpl]
    cases p with
    | field => exact absurd ⟨rfl, .inl smpl⟩ field
    | plant => rfl
  · rw [if_neg smpl]
    by_cases helo : f.kind = kindHelo
    · rw [if_pos helo]
      cases p with
      | field => exact absurd ⟨rfl, .inr helo⟩ field
      | plant => rfl
    · rw [if_neg helo]
      by_cases marks : f.kind = kindMark
      · rw [if_pos marks]
        exact if_neg fun dest => mark ⟨marks, dest⟩
      · rw [if_neg marks]
        by_cases cmnds : f.kind = kindCmnd
        · rw [if_pos cmnds]
          cases p with
          | field => rfl
          | plant => exact if_neg fun dest => cmnd ⟨cmnds, dest⟩
        · rw [if_neg cmnds]

/-- R160: a smpl, a helo or a mark moves nothing of what the ports store. -/
theorem tap_storing {f : Frame} (h : f.kind ≠ 5#8) : (s.tap p f).storing = s.storing := by
  unfold State.tap
  split
  · cases p
    · exact s.tapSmpl_storing _ _
    · rfl
  · split
    · cases p
      · exact s.tapHelo_storing _ _
      · rfl
    · split
      · split
        · exact s.takeMark_storing _ _
        · rfl
      · rfl

/-- R160 to R162: an accepted frame's end is its forwarding, then the tap. -/
theorem receive_of_short {f : Frame} {begun : Begun} (up : (s.port p).link = .up) (short : f.payload.length ≤ 248) :
    s.receive p f begun = (s.forward p f begun).tap p f := by
  unfold State.receive
  rw [if_pos up, if_pos short]

/-! ### Bad frames (R159) -/

theorem receiveBytes_of_bad {bytes : List Byte} {aborted : Bool} (h : aborted = true ∨ acceptBytes bytes = none) :
    s.receiveBytes p bytes aborted = s.badEnd p bytes := by
  unfold State.receiveBytes
  rcases h with rfl | rejected
  · cases acceptBytes bytes <;> rfl
  · rw [rejected]

theorem badEnd_of_unstored {bytes : List Byte} (up : (s.port p).link = .up) (rx : (s.port p).rx ≠ some true) :
    s.badEnd p bytes = s.setPort p { s.port p with
      rx := none, badCheck := min 4294967295 ((s.port p).badCheck + 1) } := by
  unfold State.badEnd
  dsimp only
  rw [if_pos up, State.port_setPort_same, bump_eq, State.setPort_setPort]
  split
  · next stored => exact absurd stored rx
  · rfl

theorem badEnd_of_stored {bytes : List Byte} (up : (s.port p).link = .up) (rx : (s.port p).rx = some true) :
    s.badEnd p bytes = (s.setPort p { s.port p with
      badCheck := min 4294967295 ((s.port p).badCheck + 1) }).endStored p bytes false := by
  unfold State.badEnd
  dsimp only
  rw [if_pos up, State.port_setPort_same, bump_eq]
  dsimp only
  rw [rx]

end

end Sys2Proof.Machine

open Sys2Proof Sys2Proof.Machine

/-- Settles O60: the forwarding of a frame case by case, with a tap that moves nothing of it. -/
theorem framesAreForwardedOrCounted : Obligations.FramesAreForwardedOrCounted := by
  intro p dest src kind payload begun s up q o f tapped linked handed becomes
  have becomes_of {u : State} (short : payload.length ≤ 248)
      (h : ¬(kind = 5#8 ∧ dest = s.address) → s.forward p f begun = u) : becomes u := by
    have received : s.receive p f begun = (s.forward p f begun).tap p f := receive_of_short s p up short
    have frame := (s.forward_portsOnly p f begun).frame
    have address : (s.forward p f begun).address = s.address := (congrArg State.address frame :)
    refine ⟨fun untapped => ?_, fun c hands => ?_⟩
    · have forwarded := h fun cmnd => untapped (.inr (.inr cmnd))
      refine next_settle (received.trans ?_)
      rw [tap_of_untapped (s.forward p f begun) p (by rw [address]; exact untapped), forwarded]
    · have kinds : kind ≠ 5#8 := by
        rcases hands with ⟨-, rfl, -⟩ | ⟨-, rfl, -⟩ | ⟨rfl, -⟩ <;> decide
      have row : exec c s = .next (settle (s.receive p f begun)) := by
        rcases hands with ⟨rfl, rfl, rfl⟩ | ⟨rfl, rfl, rfl⟩ | ⟨rfl, rfl⟩ <;> rfl
      have storing : (settle (s.receive p f begun)).storing = u.storing := by
        rw [settle_storing, received, tap_storing _ p kinds, h fun cmnd => kinds cmnd.1]
      obtain ⟨fresh, port⟩ := State.port_storing storing p
      exact ⟨_, row, fresh, congrArg (·.1) port, congrArg (·.2.1) port, congrArg (·.2.2.1) port,
        congrArg (·.2.2.2.1) port, congrArg (·.2.2.2.2) port⟩
  refine ⟨fun short rx => ⟨fun unlinked => becomes_of short fun _ => forward_of_unlinked s p rx unlinked,
    fun th link threshold => ?_⟩, fun short => ⟨fun rx => becomes_of short fun _ => forward_of_unstored s p rx,
    fun kept e rx buffer room => becomes_of short fun _ => forward_of_stored s p rx buffer room⟩,
    fun field short rx => next_settle ?_, fun bytes aborted bad => ?_⟩
  · intro stored counted
    have new (others : ¬(kind = 5#8 ∧ dest = s.address)) :=
      forward_of_new s p (f := f) rx link others (Port.thresholdAt_eq threshold)
    have unread (x : Port) : ({ x with rx := none } : Port) = { x with rx := q.rx } := by
      rw [show q.rx = none from rx]
    refine ⟨fun room => becomes_of short fun others => ?_, fun full idle => becomes_of short fun others => ?_,
      fun e rest full tx buffer => ⟨Config.freeNat s.fresh % (e.bytes.length + 1), Nat.le_of_lt_succ (Nat.mod_lt _ (Nat.succ_pos _)),
        becomes_of short fun others => ?_⟩⟩
    · rw [new others, testRoom_taking_of_room s p _ f th room, State.port_setPort_same, State.setPort_setPort, unread]
      rfl
    · rw [new others, testRoom_taking_of_full s p _ f th full idle, State.port_setPort_same, State.setPort_setPort, unread]
    · rw [new others, testRoom_taking_of_sending s p _ f th full tx buffer]
      split
      · rw [State.port_setPort_same, State.setPort_setPort, unread]
        rfl
      · rw [State.port_setPort_same, State.setPort_setPort, unread]
  · subst field
    have consumed : s.forward .field { dest := s.address, src := src, kind := kindCmnd, payload := payload } begun = s := by
      unfold State.forward
      rw [show (s.port .field).rx = none from rx]
      have takes : s.consumes s.address kindCmnd = true := decide_eq_true ⟨rfl, rfl⟩
      exact if_neg fun stored => by rw [takes] at stored; simp at stored
    refine (receive_of_short s .field up short).trans ?_
    rw [consumed]
    rfl
  · intro counted
    have row : exec (.badFrame p bytes aborted) s = .next (settle (s.badEnd p bytes)) :=
      next_settle (receiveBytes_of_bad s p bad)
    refine ⟨fun rx => row.trans (next_settle (badEnd_of_unstored s p up rx)), fun kept e rx buffer => ?_⟩
    rw [row, badEnd_of_stored s p up rx]
    generalize tallied : s.setPort p { s.port p with badCheck := min 4294967295 ((s.port p).badCheck + 1) } = v
    have port : v.port p = { s.port p with badCheck := min 4294967295 ((s.port p).badCheck + 1) } := by
      rw [← tallied, State.port_setPort_same]
    have other : v.port p.other = o := by rw [← tallied, State.port_setPort_other]
    have holds : (v.port p).buffer = kept ++ [e] := by
      rw [port]
      exact buffer
    refine ⟨fun leaves => next_settle ?_, fun tx alone room => next_settle ?_⟩
    · rw [endStored_of_bad v p holds (by rw [other]; exact leaves), port, ← tallied, State.setPort_setPort]
    · subst alone
      rw [endStored_of_kept v p holds (.inr ⟨by rw [other]; exact tx, rfl⟩) (by simpa using room), port, ← tallied,
        State.setPort_setPort]
      rfl
end

section
/-! PROOFS. The swap, and what the triggers of one group leave to another (R105 to R109). -/

namespace Sys2Proof.Machine

set_option Elab.async false

section
variable {s t u : State}

/-! ### The swap -/

theorem swap_sound (sound : s.sound) (g : Fin 4) (cause : Cause) : (s.swap g cause).sound := by
  rw [State.swap_of_sound sound]
  exact ⟨by simp [State.swapFill, sound.1], sound.2⟩

theorem swap_group (sound : s.sound) (g : Fin 4) (cause : Cause) : (s.swap g cause).group g =
    { s.group g with closing := some (s.closingOf g cause), period := nextPeriod (s.group g).period } := by
  rw [State.swap_of_sound sound]
  exact vget_vset_same _ _ _

theorem swap_group_other (sound : s.sound) {g i : Fin 4} (other : i ≠ g) (cause : Cause) :
    (s.swap g cause).group i = s.group i := by
  rw [State.swap_of_sound sound]
  exact vget_vset_other _ other.symm _

theorem swap_fLive (sound : s.sound) (g : Fin 4) (cause : Cause) :
    (s.swap g cause).fLive g = { base := s.freshBase (.furnace g) } := by
  rw [State.swap_of_sound sound]
  exact vget_vset_same _ _ _

theorem swap_fLive_other (sound : s.sound) {g i : Fin 4} (other : i ≠ g) (cause : Cause) :
    (s.swap g cause).fLive i = s.fLive i := by
  rw [State.swap_of_sound sound]
  exact vget_vset_other _ other.symm _

theorem swap_lLive (sound : s.sound) (g : Fin 4) (cause : Cause) (l : Fin 8) : (s.swap g cause).lLive l =
    if (s.lineCfg l).furnace = some g then { base := s.freshBase (.line l) } else s.lLive l := by
  rw [State.swap_of_sound sound]
  exact (vget_vgen _ _).trans (by simp only [State.inGroup, decide_eq_true_eq])

theorem swap_furnaceMark (sound : s.sound) (g : Fin 4) (cause : Cause) :
    vget (s.swap g cause).check.furnaceMarks g = false := by
  rw [State.swap_of_sound sound]
  exact vget_vset_same _ _ _

theorem swap_furnaceMark_other (sound : s.sound) {g i : Fin 4} (other : i ≠ g) (cause : Cause) :
    vget (s.swap g cause).check.furnaceMarks i = vget s.check.furnaceMarks i := by
  rw [State.swap_of_sound sound]
  exact vget_vset_other _ other.symm _

theorem swap_lineMark (sound : s.sound) (g : Fin 4) (cause : Cause) (l : Fin 8) :
    vget (s.swap g cause).check.lineMarks l =
      (vget s.check.lineMarks l && !decide ((s.lineCfg l).furnace = some g)) := by
  rw [State.swap_of_sound sound]
  exact vget_vgen _ _

theorem swap_lineInput_other (sound : s.sound) {g : Fin 4} {l : Fin 8} (other : (s.lineCfg l).furnace ≠ some g)
    (cause : Cause) : (s.swap g cause).lineInput l = s.lineInput l := by
  rw [State.swap_of_sound sound]
  exact (vget_vgen _ _).trans (if_neg (by simpa [State.inGroup] using other))

/-- R108: the blocks that a swap of sound storage leaves as they are. -/
theorem swap_frame (sound : s.sound) (g : Fin 4) (cause : Cause) : s.swap g cause = { s with
    check := (s.swap g cause).check
    furnaceLive := (s.swap g cause).furnaceLive
    lineLive := (s.swap g cause).lineLive
    lineInputs := (s.swap g cause).lineInputs
    groups := (s.swap g cause).groups
    latent := (s.swap g cause).latent } := by
  rw [State.swap_of_sound sound]
  rfl

/-- R45: the held streams of a fresh live set. -/
theorem freshBase_eq (s : State) (a : Account) : s.freshBase a =
    { held := vgen fun k => (s.stream k).any fun st =>
        decide (st.entry.target = a ∧ (st.live.state = .stale ∨ st.live.state = .lost))
      start := ⟨s.clock.sec, s.clock.ms, s.clock.timeSet, s.clock.elapsed⟩ } := by
  have held : s.silentFor a = vgen fun k => (s.stream k).any fun st =>
      decide (st.entry.target = a ∧ (st.live.state = .stale ∨ st.live.state = .lost)) := by
    unfold State.silentFor
    congr 1
    funext k
    cases s.stream k <;> rfl
  unfold State.freshBase
  rw [held]
  rfl

/-! ### What belongs to a group -/

/-- All that a swap of group `g` reads and what it is judged by is the same in `t` as in `s`. -/
structure State.AgreeOn (g : Fin 4) (s t : State) : Prop where
  sound : t.sound
  run : t.run = s.run
  stamp : t.stamp = s.stamp
  furnaces : t.furnaces = s.furnaces
  lines : t.lines = s.lines
  streams : t.streams = s.streams
  group : t.group g = s.group g
  boundary : t.boundary g = s.boundary g
  fLive : t.fLive g = s.fLive g
  lLive : ∀ l, (s.lineCfg l).furnace = some g → t.lLive l = s.lLive l
  marked : t.groupMarked g = s.groupMarked g

/-- `t` has the live sets of `s` of the lines that are in no group. -/
def State.KeepsUnassigned (s t : State) : Prop :=
  t.lines = s.lines ∧ ∀ l, (s.lineCfg l).furnace = none → t.lLive l = s.lLive l

namespace State.AgreeOn
variable {g : Fin 4}

theorem refl (sound : s.sound) : s.AgreeOn g s := ⟨sound, rfl, rfl, rfl, rfl, rfl, rfl, rfl, rfl, fun _ _ => rfl, rfl⟩

theorem lineCfg (h : s.AgreeOn g t) (l : Fin 8) : t.lineCfg l = s.lineCfg l := congrArg (vget · l) h.lines

theorem furnaceCfg (h : s.AgreeOn g t) (f : Fin 4) : t.furnaceCfg f = s.furnaceCfg f := congrArg (vget · f) h.furnaces

theorem linesOf (h : s.AgreeOn g t) : t.linesOf g = s.linesOf g := by
  unfold State.linesOf
  simp only [h.lineCfg]

theorem trans (a : s.AgreeOn g t) (b : t.AgreeOn g u) : s.AgreeOn g u where
  sound := b.sound
  run := b.run.trans a.run
  stamp := b.stamp.trans a.stamp
  furnaces := b.furnaces.trans a.furnaces
  lines := b.lines.trans a.lines
  streams := b.streams.trans a.streams
  group := b.group.trans a.group
  boundary := b.boundary.trans a.boundary
  fLive := b.fLive.trans a.fLive
  lLive l h := (b.lLive l ((congrArg LineConfig.furnace (a.lineCfg l)).trans h)).trans (a.lLive l h)
  marked := b.marked.trans a.marked

theorem sec (h : s.AgreeOn g t) : t.clock.sec = s.clock.sec := congrArg Stamp.sec h.stamp

theorem timeSet (h : s.AgreeOn g t) : t.clock.timeSet = s.clock.timeSet := congrArg Stamp.timeSet h.stamp

/-- R12, R108: the closing set is made of what belongs to the group. -/
theorem closingOf (h : s.AgreeOn g t) (cause : Cause) : t.closingOf g cause = s.closingOf g cause := by
  have lines : (t.linesOf g).map (fun l => ({ line := l, live := t.lLive l, limits := (t.lineCfg l).limits } : ClosingLine)) =
      (s.linesOf g).map fun l => { line := l, live := s.lLive l, limits := (s.lineCfg l).limits } := by
    rw [h.linesOf]
    refine List.map_congr_left fun l mem => ?_
    have assigned : (s.lineCfg l).furnace = some g := by simpa [State.linesOf] using mem
    rw [h.lLive l assigned, h.lineCfg]
  unfold State.closingOf
  rw [lines, h.fLive, h.furnaceCfg, h.run, h.group, h.stamp, h.marked]

theorem isClosing (h : s.AgreeOn g t) : t.isClosing g = s.isClosing g := by
  unfold State.isClosing
  rw [h.group]

theorem closes (h : s.AgreeOn g t) : t.closes = s.closes := by
  unfold State.closes
  rw [h.run]

theorem boundaryDue (h : s.AgreeOn g t) : t.boundaryDue g = s.boundaryDue g := by
  unfold State.boundaryDue
  rw [h.boundary, h.sec]

theorem boundaryFrom (h : s.AgreeOn g t) : t.boundaryFrom g = s.boundaryFrom g := by
  unfold State.boundaryFrom
  rw [h.furnaceCfg, h.timeSet, h.sec]

end State.AgreeOn

theorem swap_agrees (sound : s.sound) {g i : Fin 4} (other : g ≠ i) (cause : Cause) :
    s.AgreeOn g (s.swap i cause) := by
  have frame := swap_frame sound i cause
  refine
    { sound := swap_sound sound i cause
      run := (congrArg State.run frame :)
      stamp := (congrArg State.stamp frame :)
      furnaces := (congrArg State.furnaces frame :)
      lines := (congrArg State.lines frame :)
      streams := (congrArg State.streams frame :)
      group := swap_group_other sound other cause
      boundary := (congrArg (fun x => x.boundary g) frame :)
      fLive := swap_fLive_other sound other cause
      lLive := fun l h => ?_
      marked := ?_ }
  · rw [swap_lLive sound, if_neg]
    rw [h]
    exact fun same => other (Option.some.inj same)
  · unfold State.groupMarked
    have lines : (s.swap i cause).linesOf g = s.linesOf g := (congrArg (fun x => x.linesOf g) frame :)
    rw [swap_furnaceMark_other sound other, lines]
    congr 1
    rw [Bool.eq_iff_iff, List.any_eq_true, List.any_eq_true]
    refine exists_congr fun l => and_congr_right fun mem => ?_
    have assigned : (s.lineCfg l).furnace = some g := by simpa [State.linesOf] using mem
    rw [swap_lineMark sound, assigned]
    simp [other]

theorem State.PortsOnly.agrees {g : Fin 4} (h : s.PortsOnly t) (sound : s.sound) : s.AgreeOn g t := by
  rw [h.frame]
  exact ⟨sound, rfl, rfl, rfl, rfl, rfl, rfl, rfl, rfl, fun _ _ => rfl, rfl⟩

/-! ### Triggers -/

theorem setGroup_agrees (sound : s.sound) {g i : Fin 4} (other : g ≠ i) (x : GroupClose) :
    s.AgreeOn g (s.setGroup i x) :=
  { State.AgreeOn.refl sound with sound := sound, group := vget_vset_other _ other.symm _ }

theorem trigger_sound (sound : s.sound) (g : Fin 4) (cause : Cause) : (s.trigger g cause).sound := by
  unfold State.trigger
  split
  · exact sound
  · exact swap_sound sound g cause

theorem trigger_agrees (sound : s.sound) {g i : Fin 4} (other : g ≠ i) (cause : Cause) :
    s.AgreeOn g (s.trigger i cause) := by
  unfold State.trigger
  split
  · exact setGroup_agrees sound other _
  · exact swap_agrees sound other cause

/-- R105 to R107: a trigger defers a group that is CLOSING, and closes another. -/
theorem trigger_group (sound : s.sound) (g : Fin 4) (cause : Cause) : (s.trigger g cause).group g =
    if (s.group g).closing.isSome then { s.group g with deferred := true }
    else { s.group g with closing := some (s.closingOf g cause), period := nextPeriod (s.group g).period } := by
  unfold State.trigger State.isClosing
  split
  · exact vget_vset_same _ _ _
  · exact swap_group sound g cause

/-- Operations on other groups, one after the other, leave what belongs to the group. -/
theorem foldl_agrees {op : State → Fin 4 → State} {g : Fin 4}
    (others : ∀ (u : State) (i : Fin 4), u.sound → g ≠ i → u.AgreeOn g (op u i)) (l : List (Fin 4)) (absent : g ∉ l) (sound : s.sound) :
    s.AgreeOn g (l.foldl op s) := by
  induction l generalizing s with
  | nil => exact .refl sound
  | cons i l ih =>
    obtain ⟨other, absent⟩ := not_or.1 (mt List.mem_cons.2 absent)
    have first := others s i sound other
    exact first.trans (ih absent first.sound)

/-- An operation on each of some groups acts on group `g` once, on what belonged to the group at first. -/
theorem foldl_agrees_at {op : State → Fin 4 → State} {g : Fin 4} (keeps : ∀ u : State, u.sound → (op u g).sound)
    (others : ∀ (u : State) (i : Fin 4), u.sound → g ≠ i → u.AgreeOn g (op u i)) {l : List (Fin 4)} (distinct : l.Nodup) (mem : g ∈ l)
    (sound : s.sound) : ∃ u, s.AgreeOn g u ∧ (op u g).AgreeOn g (l.foldl op s) := by
  obtain ⟨before, behind, rfl⟩ := List.mem_iff_append.1 mem
  rw [List.nodup_append] at distinct
  obtain ⟨-, distinct, apart⟩ := distinct
  have first := foldl_agrees others before (fun h => apart g h g (by simp) rfl) sound
  refine ⟨before.foldl op s, first, ?_⟩
  rw [List.foldl_append]
  exact foldl_agrees others behind (List.nodup_cons.1 distinct).1 (keeps _ first.sound)

/-- R105, R107: each of the groups that take a mark is triggered once. -/
theorem foldl_trigger_group (sound : s.sound) (cause : Cause) (g : Fin 4) {l : List (Fin 4)} (distinct : l.Nodup) :
    (l.foldl (fun t i => t.trigger i cause) s).group g =
      if g ∈ l then (s.trigger g cause).group g else s.group g := by
  have others (u : State) (i : Fin 4) (sound : u.sound) (other : g ≠ i) : u.AgreeOn g (u.trigger i cause) :=
    trigger_agrees sound other cause
  split
  next mem =>
    obtain ⟨u, before, after⟩ := foldl_agrees_at (fun u h => trigger_sound h g cause) others distinct mem sound
    rw [after.group, trigger_group before.sound, trigger_group sound, before.group, before.closingOf]
  next absent => exact (foldl_agrees others l absent sound).group

/-- R105: the groups that take a mark. -/
def State.takers (s : State) (src mask : Byte) : List (Fin 4) :=
  ((List.finRange 4).filter fun g => mask.getLsbD g.val && (s.furnaceCfg g).defined).filter (s.markSuits src)

theorem takeMark_of_sound (sound : s.sound) (src mask : Byte) (rest : List Byte) : s.takeMark src (mask :: rest) =
    if s.closes then (s.takers src mask).foldl (fun t g => t.trigger g .mark) s else s := by
  simp only [State.takeMark, State.takers, touchAll_of_sound sound, ite_self]

theorem mem_takers (sound : s.sound) (src mask : Byte) (g : Fin 4) : g ∈ s.takers src mask ↔
    mask.getLsbD g.val = true ∧ (s.furnaceCfg g).defined = true ∧ (s.furnaceCfg g).mode ≠ .timed ∧
      (s.furnaceCfg g).markSource ≠ 0 ∧ (s.furnaceCfg g).markSource = src.toNat := by
  simp only [State.takers, State.markSuits, furnaceAsRead_of_sound sound, List.mem_filter, List.mem_finRange, true_and,
    Bool.and_eq_true, decide_eq_true_eq]
  tauto

theorem takers_nodup (s : State) (src mask : Byte) : (s.takers src mask).Nodup :=
  ((List.nodup_finRange 4).filter _).filter _

/-- R105, R107: a group under a mark. -/
theorem takeMark_group (sound : s.sound) (src mask : Byte) (rest : List Byte) (g : Fin 4) :
    (s.takeMark src (mask :: rest)).group g =
      if s.closes ∧ g ∈ s.takers src mask then (s.trigger g .mark).group g else s.group g := by
  rw [takeMark_of_sound sound]
  by_cases closes : s.closes = true
  · rw [if_pos closes, foldl_trigger_group sound _ _ (takers_nodup s src mask)]
    simp [closes]
  · rw [if_neg closes, if_neg fun h => closes h.1]

theorem closes_iff (s : State) : s.closes = true ↔ s.run = .run ∨ s.run = .halt := decide_eq_true_iff

theorem swap_keepsUnassigned (sound : s.sound) (g : Fin 4) (cause : Cause) : s.KeepsUnassigned (s.swap g cause) := by
  refine ⟨(congrArg State.lines (swap_frame sound g cause) :), fun l free => ?_⟩
  rw [swap_lLive sound, free]
  exact if_neg nofun

end

end Sys2Proof.Machine

open Sys2Proof Sys2Proof.Machine

/-- Settles O40: in sound storage the reads change nothing, and each account of the group is written by the fill. -/
theorem swapFillsTheClosingSet : Obligations.SwapFillsTheClosingSet := by
  intro g cause s sound period
  have frame := swap_frame sound g cause
  refine ⟨?_, ?_, fun l assigned => ⟨?_, ?_⟩, swap_furnaceMark sound g cause, fun i other => ⟨?_, ?_, ?_⟩,
    fun l outside => ⟨?_, ?_, ?_⟩, (congrArg State.streams frame :), (congrArg State.clock frame :),
    (congrArg State.records frame :), (congrArg State.furnaces frame :), (congrArg State.lines frame :),
    (congrArg State.furnaceInputs frame :)⟩
  · rw [swap_group sound, nextPeriod_eq _ period]
    rfl
  · rw [swap_fLive sound, freshBase_eq]
  · rw [swap_lLive sound, if_pos assigned, freshBase_eq]
  · rw [swap_lineMark sound, assigned]
    simp
  · exact swap_group_other sound other cause
  · exact swap_fLive_other sound other cause
  · exact swap_furnaceMark_other sound other cause
  · rw [swap_lLive sound, if_neg outside]
  · exact swap_lineInput_other sound outside cause
  · rw [swap_lineMark sound]
    simp [outside]

/-- Settles O42: the port keeps what the groups are judged by, and each taker is triggered once. -/
theorem markIsJudgedPerGroup : Obligations.MarkIsJudgedPerGroup := by
  intro port dest src mask rest begun s up short toPart sound
  let f : Frame := { dest := dest, src := src, kind := kindMark, payload := mask :: rest }
  have received := receive_of_short s port (f := f) (begun := begun) up (Nat.succ_le_succ short)
  have ports := s.forward_portsOnly port f begun
  generalize s.forward port f begun = v at received ports
  have tapped : v.tap port f = v.takeMark src (mask :: rest) := by
    have own : f.dest = v.address ∨ f.dest = 255#8 := by
      rwa [show v.address = s.address from (congrArg State.address ports.frame :)]
    simp [State.tap, f, kindMark, kindSmpl, kindHelo, own]
  have vSound : v.sound := (ports.agrees (g := 0) sound).sound
  refine ⟨_, next_settle (received.trans tapped), fun g => ?_⟩
  have same := ports.agrees (g := g) sound
  simp only [settle_group, takeMark_group vSound, trigger_group vSound, same.closes, closes_iff, mem_takers vSound,
    same.furnaceCfg, same.group, same.closingOf]
  refine ⟨fun suits idle => ?_, fun suits closing => ?_, fun unsuited => if_neg unsuited⟩
  · rw [if_pos suits, if_neg (by rw [idle]; nofun)]
  · rw [if_pos suits, if_pos closing]
end

section
/-! PROOFS. Timed boundaries at jumps of plant time (R95, R96, R99, R100). -/

namespace Sys2Proof.Machine

set_option Elab.async false

section
variable {s t u : State}

/-! ### Timed boundaries -/

/-- R105 to R107: the blocks that a trigger of sound storage leaves as they are. -/
theorem trigger_frame (sound : s.sound) (g : Fin 4) (cause : Cause) : s.trigger g cause = { s with
    check := (s.trigger g cause).check
    furnaceLive := (s.trigger g cause).furnaceLive
    lineLive := (s.trigger g cause).lineLive
    lineInputs := (s.trigger g cause).lineInputs
    groups := (s.trigger g cause).groups
    latent := (s.trigger g cause).latent } := by
  unfold State.trigger
  split
  · rfl
  · exact swap_frame sound g cause

theorem timedBoundary_sound (sound : s.sound) (g : Fin 4) : (s.timedBoundary g).sound := by
  unfold State.timedBoundary
  split
  · exact trigger_sound sound g .timed
  · exact sound

theorem timedBoundary_frame (sound : s.sound) (g : Fin 4) : s.timedBoundary g = { s with
    check := (s.timedBoundary g).check
    furnaceLive := (s.timedBoundary g).furnaceLive
    lineLive := (s.timedBoundary g).lineLive
    lineInputs := (s.timedBoundary g).lineInputs
    groups := (s.timedBoundary g).groups
    latent := (s.timedBoundary g).latent } := by
  unfold State.timedBoundary
  split
  · exact trigger_frame sound g .timed
  · rfl

theorem timedBoundary_agrees (sound : s.sound) {g i : Fin 4} (other : g ≠ i) : s.AgreeOn g (s.timedBoundary i) := by
  unfold State.timedBoundary
  split
  · exact trigger_agrees sound other .timed
  · exact .refl sound

theorem setBoundary_agrees (sound : s.sound) {g i : Fin 4} (other : g ≠ i) (b : Option Nat) :
    s.AgreeOn g (s.setBoundary i b) :=
  { State.AgreeOn.refl sound with sound := sound, boundary := vget_vset_other _ other.symm _ }

/-- R99: after the timed boundary the next one is computed from the plant time that stands. -/
theorem boundaryReached_of_sound (sound : s.sound) (g : Fin 4) :
    s.boundaryReached g = (s.timedBoundary g).setBoundary g (s.boundaryFrom g) := by
  have frame := timedBoundary_frame sound g
  have from_eq : (s.timedBoundary g).boundaryFrom g = s.boundaryFrom g := (congrArg (fun x => x.boundaryFrom g) frame :)
  unfold State.boundaryReached
  rw [computeBoundary_of_sound (timedBoundary_sound sound g), from_eq]

/-- R100: the state after the timed boundary of a group at a jump, where there is one. -/
def State.atJump (s : State) (g : Fin 4) : State := if s.boundaryDue g then s.timedBoundary g else s

theorem jumpGroup_of_sound (sound : s.sound) (g : Fin 4) :
    s.jumpGroup g = (s.atJump g).setBoundary g (s.boundaryFrom g) := by
  unfold State.jumpGroup State.atJump
  rw [boundaryReached_of_sound sound, computeBoundary_of_sound sound]
  split <;> rfl

theorem atJump_sound (sound : s.sound) (g : Fin 4) : (s.atJump g).sound := by
  unfold State.atJump
  split
  · exact timedBoundary_sound sound g
  · exact sound

theorem atJump_agrees (sound : s.sound) {g i : Fin 4} (other : g ≠ i) : s.AgreeOn g (s.atJump i) := by
  unfold State.atJump
  split
  · exact timedBoundary_agrees sound other
  · exact .refl sound

theorem atJump_frame (sound : s.sound) (g : Fin 4) : s.atJump g = { s with
    check := (s.atJump g).check
    furnaceLive := (s.atJump g).furnaceLive
    lineLive := (s.atJump g).lineLive
    lineInputs := (s.atJump g).lineInputs
    groups := (s.atJump g).groups
    latent := (s.atJump g).latent } := by
  unfold State.atJump
  split
  · exact timedBoundary_frame sound g
  · rfl

theorem jumpGroup_agrees (sound : s.sound) {g i : Fin 4} (other : g ≠ i) : s.AgreeOn g (s.jumpGroup i) := by
  rw [jumpGroup_of_sound sound]
  have first := atJump_agrees sound other
  exact first.trans (setBoundary_agrees first.sound other _)

/-- R100: the group swaps at the jump. -/
def State.swapsAtJump (s : State) (g : Fin 4) : Prop :=
  s.closes = true ∧ s.boundaryDue g = true ∧ (s.group g).closing = none

theorem atJump_of_swaps {g : Fin 4} (h : s.swapsAtJump g) : s.atJump g = s.swap g .timed := by
  obtain ⟨closes, due, idle⟩ := h
  simp [State.atJump, due, State.timedBoundary, closes, State.trigger, State.isClosing, idle]

theorem atJump_of_deferred {g : Fin 4} (closes : s.closes = true) (due : s.boundaryDue g = true)
    (closing : (s.group g).closing.isSome) : s.atJump g = s.setGroup g { s.group g with deferred := true } := by
  simp [State.atJump, due, State.timedBoundary, closes, State.trigger, State.isClosing, closing]

theorem atJump_of_not_closes (g : Fin 4) (closes : s.closes = false) : s.atJump g = s := by
  simp [State.atJump, State.timedBoundary, closes]

theorem atJump_of_not_due (g : Fin 4) (due : s.boundaryDue g = false) : s.atJump g = s := by
  simp [State.atJump, due]

/-- R100, R107: a group that does not swap at a jump keeps its live sets. -/
theorem atJump_live {g : Fin 4} (h : ¬s.swapsAtJump g) :
    (s.atJump g).furnaceLive = s.furnaceLive ∧ (s.atJump g).lineLive = s.lineLive := by
  by_cases closes : s.closes = true
  · by_cases due : s.boundaryDue g = true
    · have closing : (s.group g).closing.isSome := Option.isSome_iff_ne_none.2 fun idle => h ⟨closes, due, idle⟩
      rw [atJump_of_deferred closes due closing]
      exact ⟨rfl, rfl⟩
    · rw [atJump_of_not_due g (Bool.eq_false_iff.2 due)]
      exact ⟨rfl, rfl⟩
  · rw [atJump_of_not_closes g (Bool.eq_false_iff.2 closes)]
    exact ⟨rfl, rfl⟩

theorem atJump_keepsUnassigned (sound : s.sound) (g : Fin 4) : s.KeepsUnassigned (s.atJump g) := by
  by_cases swaps : s.swapsAtJump g
  · rw [atJump_of_swaps swaps]
    exact swap_keepsUnassigned sound g .timed
  · exact ⟨(congrArg State.lines (atJump_frame sound g) :), fun l _ => congrArg (vget · l) (atJump_live swaps).2⟩

theorem State.KeepsUnassigned.trans (a : s.KeepsUnassigned t) (b : t.KeepsUnassigned u) : s.KeepsUnassigned u :=
  ⟨b.1.trans a.1, fun l h =>
    (b.2 l ((congrArg (fun x => LineConfig.furnace (vget x l)) a.1).trans h)).trans (a.2 l h)⟩

theorem jumpGroup_keepsUnassigned (sound : s.sound) (g : Fin 4) : s.KeepsUnassigned (s.jumpGroup g) := by
  rw [jumpGroup_of_sound sound]
  exact (atJump_keepsUnassigned sound g).trans ⟨rfl, fun _ _ => rfl⟩

theorem jumpGroup_sound (sound : s.sound) (g : Fin 4) : (s.jumpGroup g).sound := by
  rw [jumpGroup_of_sound sound]
  exact atJump_sound sound g

theorem foldl_jumpGroup_keepsUnassigned (sound : s.sound) (l : List (Fin 4)) :
    s.KeepsUnassigned (l.foldl State.jumpGroup s) := by
  induction l generalizing s with
  | nil => exact ⟨rfl, fun _ _ => rfl⟩
  | cons g l ih => exact (jumpGroup_keepsUnassigned sound g).trans (ih (jumpGroup_sound sound g))

/-! ### Jumps -/

/-- R95, R101: the plant time set, and the TIME-ADJUSTED marks. -/
def State.adjustedTo (s : State) (sec ms : Nat) : State :=
  { s with clock := { s.clock with sec := sec, ms := ms, timeSet := true } }.markAdjusted

theorem adjustedTo_frame (s : State) (sec ms : Nat) : s.adjustedTo sec ms = { s with
    clock := { s.clock with sec := sec, ms := ms, timeSet := true }
    furnaceLive := (s.adjustedTo sec ms).furnaceLive
    lineLive := (s.adjustedTo sec ms).lineLive
    latent := (s.adjustedTo sec ms).latent } := by
  unfold State.adjustedTo State.markAdjusted
  split <;> rfl

theorem adjustedTo_sound (sound : s.sound) (sec ms : Nat) : (s.adjustedTo sec ms).sound := by
  unfold State.adjustedTo State.markAdjusted
  split
  · exact ⟨by simp [sound.1], sound.2⟩
  · exact sound

theorem adjustedTo_fLive (s : State) (sec ms : Nat) (g : Fin 4) : (s.adjustedTo sec ms).fLive g =
    if s.closes ∧ (s.furnaceCfg g).defined then { s.fLive g with base := (s.fLive g).base.adjusted } else s.fLive g := by
  unfold State.adjustedTo State.markAdjusted
  by_cases closes : s.run = .run ∨ s.run = .halt
  · rw [if_pos closes]
    exact (vget_vgen _ _).trans (by simp only [(closes_iff s).2 closes, true_and]; rfl)
  · rw [if_neg closes, if_neg fun h => closes ((closes_iff s).1 h.1)]
    rfl

theorem adjustedTo_lLive (s : State) (sec ms : Nat) (l : Fin 8) : (s.adjustedTo sec ms).lLive l =
    if s.closes ∧ s.assigned l then { s.lLive l with base := (s.lLive l).base.adjusted } else s.lLive l := by
  unfold State.adjustedTo State.markAdjusted
  by_cases closes : s.run = .run ∨ s.run = .halt
  · rw [if_pos closes]
    exact (vget_vgen _ _).trans (by simp only [(closes_iff s).2 closes, true_and]; rfl)
  · rw [if_neg closes, if_neg fun h => closes ((closes_iff s).1 h.1)]
    rfl

theorem jump_of_sound (sound : s.sound) (sec ms : Nat) :
    s.jump sec ms = (List.finRange 4).foldl State.jumpGroup (s.adjustedTo sec ms) := by
  have adjusted := adjustedTo_sound sound sec ms
  unfold State.adjustedTo at *
  simp only [State.jump, touchAll_of_sound adjusted, ite_self]

/-- R100: what a jump makes of one group. -/
theorem jump_at (sound : s.sound) (sec ms : Nat) (g : Fin 4) : ∃ u, (s.adjustedTo sec ms).AgreeOn g u ∧
    (u.jumpGroup g).AgreeOn g (s.jump sec ms) := by
  rw [jump_of_sound sound]
  exact foldl_agrees_at (fun u h => jumpGroup_sound h g) (fun u i h other => jumpGroup_agrees h other)
    (List.nodup_finRange 4) (List.mem_finRange g) (adjustedTo_sound sound sec ms)

/-- R100: the parts of one group after a jump are those after its timed boundary. -/
theorem jump_parts (sound : s.sound) (sec ms : Nat) (g : Fin 4) : ∃ u, (s.adjustedTo sec ms).AgreeOn g u ∧
    (s.jump sec ms).stamp = ⟨sec, ms, true, s.clock.elapsed⟩ ∧
    (s.jump sec ms).boundary g = (s.adjustedTo sec ms).boundaryFrom g ∧
    (s.jump sec ms).group g = (u.atJump g).group g ∧ (s.jump sec ms).fLive g = (u.atJump g).fLive g ∧
    ∀ l, (s.lineCfg l).furnace = some g → (s.jump sec ms).lLive l = (u.atJump g).lLive l := by
  obtain ⟨u, before, after⟩ := jump_at sound sec ms g
  have adjusted := adjustedTo_frame s sec ms
  have frame := atJump_frame before.sound g
  rw [jumpGroup_of_sound before.sound] at after
  refine ⟨u, before, ?_, ?_, after.group, after.fLive, fun l assigned => after.lLive l ?_⟩
  · exact after.stamp.trans ((congrArg State.stamp frame :).trans (before.stamp.trans (congrArg State.stamp adjusted :)))
  · exact after.boundary.trans ((vget_vset_same _ _ _).trans before.boundaryFrom)
  · have lines : (u.atJump g).lines = s.lines :=
      (congrArg State.lines frame :).trans (before.lines.trans (congrArg State.lines adjusted :))
    exact (congrArg (fun x => LineConfig.furnace (vget x l)) lines).trans assigned

/-- R100: whether a group's boundary is reached by a jump. -/
theorem boundaryDue_iff (s : State) (g : Fin 4) : s.boundaryDue g = true ↔ ∃ b, s.boundary g = some b ∧ b ≤ s.clock.sec := by
  unfold State.boundaryDue due
  cases s.boundary g <;> simp

theorem adjustedTo_closes (s : State) (sec ms : Nat) : (s.adjustedTo sec ms).closes = s.closes :=
  (congrArg State.closes (adjustedTo_frame s sec ms) :)

theorem adjustedTo_group (s : State) (sec ms : Nat) (g : Fin 4) : (s.adjustedTo sec ms).group g = s.group g :=
  (congrArg (fun x => x.group g) (adjustedTo_frame s sec ms) :)

theorem adjustedTo_lineCfg (s : State) (sec ms : Nat) (l : Fin 8) : (s.adjustedTo sec ms).lineCfg l = s.lineCfg l :=
  (congrArg (fun x => x.lineCfg l) (adjustedTo_frame s sec ms) :)

theorem adjustedTo_linesOf (s : State) (sec ms : Nat) (g : Fin 4) : (s.adjustedTo sec ms).linesOf g = s.linesOf g :=
  (congrArg (fun x => x.linesOf g) (adjustedTo_frame s sec ms) :)

theorem adjustedTo_boundaryDue_iff (s : State) (sec ms : Nat) (g : Fin 4) :
    (s.adjustedTo sec ms).boundaryDue g = true ↔ ∃ b, s.boundary g = some b ∧ b ≤ sec := by
  have boundary : (s.adjustedTo sec ms).boundary g = s.boundary g :=
    (congrArg (fun x => x.boundary g) (adjustedTo_frame s sec ms) :)
  have secs : (s.adjustedTo sec ms).clock.sec = sec := (congrArg (fun x => x.clock.sec) (adjustedTo_frame s sec ms) :)
  rw [boundaryDue_iff, boundary, secs]

/-- R98: the next boundary that a jump computes. -/
theorem adjustedTo_boundaryFrom (s : State) (sec ms : Nat) (g : Fin 4) : (s.adjustedTo sec ms).boundaryFrom g =
    if (s.furnaceCfg g).defined ∧ (s.furnaceCfg g).mode ≠ .marked then
      nextBoundary (s.furnaceCfg g).offset (s.furnaceCfg g).length sec else none := by
  have boundary : (s.adjustedTo sec ms).boundaryFrom g =
      if (s.furnaceCfg g).timed ∧ true then nextBoundary (s.furnaceCfg g).offset (s.furnaceCfg g).length sec else none :=
    (congrArg (fun x => x.boundaryFrom g) (adjustedTo_frame s sec ms) :)
  rw [boundary]
  simp [FurnaceConfig.timed]

/-- R101: in RUN and HALT a line of a group carries the mark after the plant time is set. -/
theorem adjustedTo_lLive_of_group (closes : s.closes = true) (sec ms : Nat) {l : Fin 8} {g : Fin 4}
    (assigned : (s.lineCfg l).furnace = some g) :
    (s.adjustedTo sec ms).lLive l = { s.lLive l with base := (s.lLive l).base.adjusted } := by
  rw [adjustedTo_lLive, if_pos ⟨closes, by simp [State.assigned, assigned]⟩]

/-- R100, R101: a group that does not swap at a jump keeps the live sets with their marks. -/
theorem jump_live_of_not_swaps (sound : s.sound) {sec ms : Nat} {g : Fin 4}
    (stays : ¬(s.adjustedTo sec ms).swapsAtJump g) :
    (s.jump sec ms).fLive g = (s.adjustedTo sec ms).fLive g ∧
      ∀ l, (s.lineCfg l).furnace = some g → (s.jump sec ms).lLive l = (s.adjustedTo sec ms).lLive l := by
  obtain ⟨u, before, -, -, -, fLive, lLive⟩ := jump_parts sound sec ms g
  have kept : ¬u.swapsAtJump g := by
    unfold State.swapsAtJump
    rw [before.closes, before.boundaryDue, before.group]
    exact stays
  obtain ⟨furnaces, lines⟩ := atJump_live kept
  refine ⟨fLive.trans ((congrArg (vget · g) furnaces).trans before.fLive), fun l assigned => ?_⟩
  refine (lLive l assigned).trans ((congrArg (vget · l) lines).trans (before.lLive l ?_))
  rwa [adjustedTo_lineCfg]

/-- R100, R107: a group that swaps at a jump, its closing set made of the live sets with their marks. -/
theorem jump_of_swaps (sound : s.sound) {sec ms : Nat} {g : Fin 4} (swaps : (s.adjustedTo sec ms).swapsAtJump g) :
    (s.jump sec ms).group g = { s.group g with
        closing := some ((s.adjustedTo sec ms).closingOf g .timed), period := nextPeriod (s.group g).period } ∧
      ((s.jump sec ms).fLive g).base.flags = {} ∧
      ∀ l, (s.lineCfg l).furnace = some g → ((s.jump sec ms).lLive l).base.flags = {} := by
  obtain ⟨u, before, -, -, group, fLive, lLive⟩ := jump_parts sound sec ms g
  have swapping : u.swapsAtJump g := by
    unfold State.swapsAtJump
    rw [before.closes, before.boundaryDue, before.group]
    exact swaps
  rw [atJump_of_swaps swapping] at group fLive lLive
  refine ⟨?_, ?_, fun l assigned => ?_⟩
  · rw [group, swap_group before.sound, before.group, before.closingOf, adjustedTo_group]
  · rw [fLive, swap_fLive before.sound]
    rfl
  · rw [lLive l assigned, swap_lLive before.sound, if_pos]
    · rfl
    · rwa [before.lineCfg, adjustedTo_lineCfg]

/-- R100, R107: the group after a jump that does not swap it. -/
theorem jump_group_of_not_swaps (sound : s.sound) {sec ms : Nat} {g : Fin 4}
    (stays : ¬(s.adjustedTo sec ms).swapsAtJump g) : (s.jump sec ms).group g =
      if s.closes = true ∧ (s.adjustedTo sec ms).boundaryDue g = true then { s.group g with deferred := true }
      else s.group g := by
  obtain ⟨u, before, -, -, group, -⟩ := jump_parts sound sec ms g
  rw [group, ← adjustedTo_closes s sec ms, ← before.closes, ← before.boundaryDue, ← adjustedTo_group s sec ms, ← before.group]
  split
  next deferred =>
    have closing : (u.group g).closing.isSome := Option.isSome_iff_ne_none.2 fun idle => stays (by
      unfold State.swapsAtJump
      rw [← before.closes, ← before.boundaryDue, ← before.group]
      exact ⟨deferred.1, deferred.2, idle⟩)
    rw [atJump_of_deferred deferred.1 deferred.2 closing]
    exact vget_vset_same _ _ _
  next kept =>
    by_cases closes : u.closes = true
    · rw [atJump_of_not_due g (Bool.eq_false_iff.2 fun due => kept ⟨closes, due⟩)]
    · rw [atJump_of_not_closes g (Bool.eq_false_iff.2 closes)]

theorem State.clock_of_stamp {sec ms elapsed : Nat} {timeSet : Bool} (h : s.stamp = ⟨sec, ms, timeSet, elapsed⟩) :
    s.clock.sec = sec ∧ s.clock.ms = ms ∧ s.clock.timeSet = timeSet ∧ s.clock.elapsed = elapsed :=
  ⟨congrArg Stamp.sec h, congrArg Stamp.ms h, congrArg Stamp.timeSet h, congrArg Stamp.elapsed h⟩

/-- R95, R96: the clock after a jump. -/
theorem jump_stamp (sound : s.sound) (sec ms : Nat) : (s.jump sec ms).stamp = ⟨sec, ms, true, s.clock.elapsed⟩ := by
  obtain ⟨-, -, stamp, -⟩ := jump_parts sound sec ms 0
  exact stamp

/-- R95, R96, R100, R101: the jump. -/
theorem jumped_jump (sound : s.sound) (sec ms : Nat) : s.Jumped (s.jump sec ms) := by
  have secs := (State.clock_of_stamp (jump_stamp sound sec ms)).1
  have reached (g : Fin 4) : (∃ b, s.boundary g = some b ∧ b ≤ (s.jump sec ms).clock.sec) ↔
      (s.adjustedTo sec ms).boundaryDue g = true := by
    rw [adjustedTo_boundaryDue_iff, secs]
  have swaps (g : Fin 4) : ((s.run = .run ∨ s.run = .halt) ∧
      (s.adjustedTo sec ms).boundaryDue g = true ∧ (s.group g).closing = none) ↔
      (s.adjustedTo sec ms).swapsAtJump g := by
    unfold State.swapsAtJump
    rw [adjustedTo_closes, closes_iff, adjustedTo_group]
  have unassigned (l : Fin 8) (free : (s.lineCfg l).furnace = none) : (s.jump sec ms).lLive l = s.lLive l := by
    rw [jump_of_sound sound, (foldl_jumpGroup_keepsUnassigned (adjustedTo_sound sound sec ms) _).2 l
      (by rwa [adjustedTo_lineCfg]), adjustedTo_lLive, if_neg]
    simp [State.assigned, free]
  unfold State.Jumped
  simp only [reached, swaps]
  refine ⟨fun g => ⟨?_, fun idle => ?_, fun early => ?_, fun closes due closing => ?_, fun closes stays => ?_,
    fun swapping defined => ?_⟩, fun l => ⟨fun free => ?_, fun g assigned => ⟨fun closes stays => ?_, fun swapping => ?_⟩⟩⟩
  · obtain ⟨-, -, -, boundary, -⟩ := jump_parts sound sec ms g
    rw [boundary, adjustedTo_boundaryFrom, secs]
  · have stays : ¬(s.adjustedTo sec ms).swapsAtJump g := fun h => idle ((swaps g).2 h).1
    rw [jump_group_of_not_swaps sound stays, (jump_live_of_not_swaps sound stays).1, adjustedTo_fLive]
    exact ⟨if_neg fun h => idle ((closes_iff s).1 h.1), if_neg fun h => idle ((closes_iff s).1 h.1)⟩
  · have stays : ¬(s.adjustedTo sec ms).swapsAtJump g := fun h => early h.2.1
    rw [jump_group_of_not_swaps sound stays, if_neg fun h => early h.2]
  · have stays : ¬(s.adjustedTo sec ms).swapsAtJump g := fun h => by
      rw [((swaps g).2 h).2.2] at closing
      nomatch closing
    rw [jump_group_of_not_swaps sound stays, if_pos ⟨(closes_iff s).2 closes, due⟩]
  · rw [(jump_live_of_not_swaps sound stays).1, adjustedTo_fLive]
    simp only [(closes_iff s).2 closes, true_and]
    rfl
  · obtain ⟨group, fresh, -⟩ := jump_of_swaps sound swapping
    have closes : s.closes = true := (adjustedTo_closes s sec ms).symm.trans swapping.1
    refine ⟨_, group, rfl, congrArg GroupClose.period (adjustedTo_group s sec ms g), ?_, ?_, fresh⟩
    · exact (adjustedTo_fLive s sec ms g).trans (if_pos ⟨closes, defined⟩)
    · refine List.map_map.trans ?_
      rw [adjustedTo_linesOf]
      refine List.map_congr_left fun l mem => ?_
      exact congrArg (l, ·) (adjustedTo_lLive_of_group closes sec ms (by simpa [State.linesOf] using mem))
  · by_cases free' : (s.lineCfg l).furnace = none
    · exact unassigned l free'
    · obtain ⟨g, assigned⟩ := Option.ne_none_iff_exists'.1 free'
      have idle := free.resolve_right free'
      have stays : ¬(s.adjustedTo sec ms).swapsAtJump g := fun h => idle ((swaps g).2 h).1
      rw [(jump_live_of_not_swaps sound stays).2 l assigned, adjustedTo_lLive, if_neg fun h => idle ((closes_iff s).1 h.1)]
  · rw [(jump_live_of_not_swaps sound stays).2 l assigned,
      adjustedTo_lLive_of_group ((closes_iff s).2 closes) sec ms assigned]
    rfl
  · exact (jump_of_swaps sound swapping).2.2 l assigned

/-- `State.Jumped` speaks of the clock, the groups and the live sets of the later state. -/
theorem State.Jumped.congr (h : s.Jumped t) (clock : u.clock = t.clock) (groups : u.groups = t.groups)
    (furnaceLive : u.furnaceLive = t.furnaceLive) (lineLive : u.lineLive = t.lineLive) : s.Jumped u := by
  unfold State.Jumped State.boundary State.group State.fLive State.lLive at *
  rw [clock, groups, furnaceLive, lineLive]
  exact h

/-! ### sett and adjt -/

theorem takeSett_packed (s : State) (sec : BitVec 32) (ms : BitVec 16) :
    takeSett (packFields [(4, sec.toNat), (2, ms.toNat)]) s =
      if ms.toNat ≤ 999 then answer [] (s.jump sec.toNat ms.toNat) else refuse .badarg s := by
  have read := fields_packFields (l := [(4, sec.toNat), (2, ms.toNat)]) (by
    simp only [List.forall_mem_cons]
    exact ⟨long_fits _, word_fits _, by simp⟩)
  simp only [List.map_cons, List.map_nil] at read
  simp only [takeSett, read]

theorem signed32_toNat (b : BitVec 32) : signed32 b.toNat = b.toInt := by
  rw [signed32, BitVec.toInt_eq_toNat_cond]
  have := b.isLt
  split <;> split <;> omega

theorem takeAdjt_packed (s : State) (offset : BitVec 32) : takeAdjt (packFields [(4, offset.toNat)]) s =
    if offset.toInt < -86400000 ∨ 86400000 < offset.toInt then refuse .badarg s
    else if !s.clock.timeSet then refuse .state s
    else if s.clock.shifted offset.toInt < 0 ∨ 4294967295999 < s.clock.shifted offset.toInt then refuse .badarg s
    else answer [] (s.jump ((s.clock.shifted offset.toInt).toNat / 1000) ((s.clock.shifted offset.toInt).toNat % 1000)) := by
  have read := fields_packFields (l := [(4, offset.toNat)]) (by
    simp only [List.forall_mem_cons]
    exact ⟨long_fits _, by simp⟩)
  simp only [List.map_cons, List.map_nil] at read
  simp only [takeAdjt, read, signed32_toNat]

theorem State.Jumped.of_reserveSlot (h : s.reserveSlot.Jumped t) : s.Jumped t := by
  have port : s.reserveSlot = { s with plant := s.reserveSlot.plant } := rfl
  rw [port] at h
  exact h

/-- R95, R96: a command that sets plant time, once taken. -/
theorem taken_jump (sound : s.sound) (c : Command) (sec ms : Nat) :
    (s.taken c ⟨.done, []⟩ (s.reserveSlot.jump sec ms)).answers c.code ⟨.done, []⟩ ∧
    (s.taken c ⟨.done, []⟩ (s.reserveSlot.jump sec ms)).stamp = ⟨sec, ms, true, s.clock.elapsed⟩ ∧
    s.Jumped (s.taken c ⟨.done, []⟩ (s.reserveSlot.jump sec ms)) := by
  have reserved : s.reserveSlot.sound := sound_reserveSlot sound
  have jumped := (jumped_jump reserved sec ms).of_reserveSlot
  have stamp : (s.reserveSlot.jump sec ms).stamp = ⟨sec, ms, true, s.clock.elapsed⟩ := jump_stamp reserved sec ms
  generalize s.reserveSlot.jump sec ms = v at jumped stamp
  obtain ⟨a, f, p, frame⟩ := s.taken_frame c ⟨.done, []⟩ v
  rw [frame]
  exact ⟨⟨_, rfl, rfl, rfl⟩, stamp, jumped.congr rfl rfl rfl rfl⟩

end

end Sys2Proof.Machine

open Sys2Proof Sys2Proof.Machine

/-- Settles O44: the milliseconds checked, then the jump. -/
theorem setTimeJumps : Obligations.SetTimeJumps := by
  intro src tag sec ms s free sound
  have packed : packFields [(4, sec.toNat), (2, ms.toNat)] = be 4 sec.toNat ++ be 2 ms.toNat := by simp [packFields]
  have take {r : Reply} {e : State} (h : takeSett (packFields [(4, sec.toNat), (2, ms.toNat)]) s.reserveSlot = (r, e)) :
      exec (.sett src tag sec ms) s = .next (s.taken ⟨src, 0x40#8, tag, be 4 sec.toNat ++ be 2 ms.toNat⟩ r e) :=
    next_taken free packed (by rw [← packed]; exact (runCommand_sett ..).trans h)
  rw [takeSett_packed] at take
  refine ⟨fun long => take (if_neg (Nat.not_le.2 long)), fun short => ?_⟩
  obtain ⟨answers, stamp, jumped⟩ := taken_jump sound ⟨src, 0x40#8, tag, be 4 sec.toNat ++ be 2 ms.toNat⟩ sec.toNat ms.toNat
  obtain ⟨secs, millis, timeSet, elapsed⟩ := State.clock_of_stamp stamp
  exact ⟨_, take (if_pos short), answers, secs, millis, timeSet, elapsed, jumped⟩

/-- Settles O45: the offset, the time-set flag and the sum checked in their order, then the jump. -/
theorem adjustTimeChecksAndAdds : Obligations.AdjustTimeChecksAndAdds := by
  intro src tag offset s free sound cmd sum wide outside
  have packed : packFields [(4, offset.toNat)] = be 4 offset.toNat := by simp [packFields]
  have take {r : Reply} {e : State} (h : takeAdjt (packFields [(4, offset.toNat)]) s.reserveSlot = (r, e)) :
      exec (.adjt src tag offset) s = .next (s.taken cmd r e) :=
    next_taken free packed (by rw [← packed]; exact (runCommand_adjt ..).trans h)
  have shifted : s.reserveSlot.clock.shifted offset.toInt = sum := rfl
  rw [takeAdjt_packed, shifted] at take
  refine ⟨fun far => take (if_pos far), fun near unset => take ?_, fun near set out => take ?_, fun near set fits => ?_⟩
  · exact (if_neg near).trans (if_pos (by rw [Bool.not_eq_true']; exact unset))
  · exact (if_neg near).trans ((if_neg (by rw [Bool.not_eq_true', Bool.not_eq_false]; exact set)).trans (if_pos out))
  · have taken := take ((if_neg near).trans ((if_neg (by rw [Bool.not_eq_true', Bool.not_eq_false]; exact set)).trans
      (if_neg fits)))
    have low : 0 ≤ sum := Int.not_lt.1 fun h => fits (.inl h)
    obtain ⟨answers, stamp, jumped⟩ := taken_jump sound cmd (sum.toNat / 1000) (sum.toNat % 1000)
    obtain ⟨secs, millis, timeSet, elapsed⟩ := State.clock_of_stamp stamp
    refine ⟨_, taken, answers, ?_, ?_, timeSet, elapsed, jumped⟩ <;> rw [millis]
    · rw [secs]
      omega
    · omega
end

section
/-! PROOFS. Boundary events, the wrap of plant seconds, and the millisecond of a step on an empty queue (R93, R94, R98
to R100, R106, R107). -/

namespace Sys2Proof.Machine

set_option Elab.async false

section
variable {s t u : State}

/-! ### Boundary events -/

theorem boundaryFrom_eq (s : State) (g : Fin 4) : s.boundaryFrom g =
    if (s.furnaceCfg g).defined ∧ (s.furnaceCfg g).mode ≠ .marked ∧ s.clock.timeSet then
      nextBoundary (s.furnaceCfg g).offset (s.furnaceCfg g).length s.clock.sec else none := by
  simp [State.boundaryFrom, FurnaceConfig.timed, and_assoc]

theorem boundaryDue_of_some {g : Fin 4} {b : Nat} (h : s.boundary g = some b) :
    s.boundaryDue g = decide (b ≤ s.clock.sec) := by
  unfold State.boundaryDue
  rw [h]
  rfl

theorem boundaryReached_boundary (sound : s.sound) (g : Fin 4) : (s.boundaryReached g).boundary g = s.boundaryFrom g := by
  rw [boundaryReached_of_sound sound]
  exact vget_vset_same _ _ _

/-- R106, R107: the group after a boundary event. -/
theorem boundaryReached_group (sound : s.sound) (g : Fin 4) : (s.boundaryReached g).group g =
    if s.closes then
      if (s.group g).closing.isSome then { s.group g with deferred := true }
      else { s.group g with closing := some (s.closingOf g .timed), period := nextPeriod (s.group g).period }
    else s.group g := by
  rw [boundaryReached_of_sound sound]
  refine (rfl : _ = (s.timedBoundary g).group g).trans ?_
  unfold State.timedBoundary
  rw [← trigger_group sound]
  split <;> rfl

theorem boundaryReached_agrees (sound : s.sound) {g i : Fin 4} (other : g ≠ i) : s.AgreeOn g (s.boundaryReached i) := by
  rw [boundaryReached_of_sound sound]
  have first := timedBoundary_agrees sound other
  exact first.trans (setBoundary_agrees first.sound other _)

/-! ### The wrap of plant seconds -/

/-- R100: in sound storage the next boundaries are computed from the state that stands, and nothing else changes. -/
theorem foldl_computeBoundary_of_sound (sound : s.sound) (l : List (Fin 4)) : l.foldl State.computeBoundary s =
    { s with clock := { s.clock with boundary := l.foldl (fun v g => vset v g (s.boundaryFrom g)) s.clock.boundary } } := by
  induction l generalizing s with
  | nil => rfl
  | cons g l ih =>
    rw [List.foldl_cons, computeBoundary_of_sound sound, ih (s := s.setBoundary g (s.boundaryFrom g)) sound]
    rfl

theorem plantWrap_of_sound (sound : s.sound) (wraps : s.clock.wrapDue = true) : s.plantWrap =
    { s with clock := { s.clock with wrapDue := false, boundary := vgen fun g => s.boundaryFrom g } } := by
  have all := foldl_vset_finRange (fun g _ => s.boundaryFrom g) s.clock.boundary
  have cleared := foldl_computeBoundary_of_sound (s := { s with clock := { s.clock with wrapDue := false } }) sound
    (List.finRange 4)
  unfold State.plantWrap
  rw [if_pos wraps, cleared]
  exact congrArg (fun v => { s with clock := { s.clock with wrapDue := false, boundary := v } }) all

/-! ### The millisecond (log 1, 2) -/

/-- R110: a close in flight has not reached its latest instant. -/
def State.ClosesLater (s : State) (g : Fin 4) : Prop :=
  ∀ c, (s.group g).closing = some c → s.now < c.stop.elapsed + 20

/-- R172: the command in execution has not reached its latest instant. -/
def State.AnswersLater (s : State) : Prop := ∀ x, s.executing = some x → s.now < x.due

theorem State.Steady.closesLater (h : s.Steady t) {g : Fin 4} (later : s.ClosesLater g) : t.ClosesLater g := by
  intro c closing
  have now : t.now = s.now := h.elapsed
  rw [now]
  rcases h.stops g c closing with stop | ⟨d, before, stop⟩
  · omega
  · exact stop ▸ later d before

theorem State.Steady.answersLater (h : s.Steady t) (later : s.AnswersLater) : t.AnswersLater := by
  intro x executing
  have now : t.now = s.now := h.elapsed
  rw [now]
  rcases h.executing with same | none
  · exact later x (same.symm.trans executing)
  · exact nomatch none.symm.trans executing

/-- R172: with none waiting, the answer event takes no command. -/
theorem State.steady_answerEvent (s : State) (none : s.commands = []) : s.Steady s.answerEvent := by
  unfold State.answerEvent
  split
  · exact .refl s
  next x _ =>
    have answered := s.steady_answered x
    rw [State.tryTake_of_busy (.inr (answered.commands.trans none))]
    exact answered

/-- With no command waiting, every event that time brings is steady: none takes a command. -/
theorem steady_of_mem_timedEvents : ∀ event ∈ timedEvents, ∀ s : State, s.commands = [] → s.Steady (event s) :=
  forall_mem_timedEvents
    (fun s none => by
      have gaps := s.steady_gaps
      unfold State.closeGaps
      rw [State.tryTake_of_busy (.inr (gaps.commands.trans none))]
      exact gaps)
    (fun s _ => s.steady_plantWrap)
    (fun g s _ => s.steady_boundaryEvent g)
    (fun l s _ => s.steady_divChange l)
    (fun l s _ => s.steady_cutEdge l)
    (fun l s _ => s.steady_rejEdge l)
    (fun e s _ => s.steady_fallingEdge e)
    (fun f s _ => s.steady_revEdge f)
    (fun l s _ => s.steady_stopExpiry l)
    (fun f s _ => s.steady_blankingExpiry f)
    (fun k s _ => s.steady_selectExpiry k)
    (fun k s _ => s.steady_staleExpiry k)
    (fun k s _ => s.steady_intervalExpiry k)
    (fun k s _ => s.steady_holdExpiry k)
    (fun s _ => s.steady_secondMark)
    (fun g s _ => .ite (fun _ => s.steady_complete g) fun _ => .refl s)
    (fun s none => .ite (fun _ => s.steady_answerEvent none) fun _ => .refl s)
    (fun p s _ => s.steady_sendBurst p)

theorem steady_foldl_settle {events : List (State → State)}
    (h : ∀ event ∈ events, ∀ s : State, s.commands = [] → s.Steady (event s)) (none : s.commands = []) :
    s.Steady (events.foldl (fun t event => settle (event t)) s) := by
  induction events generalizing s with
  | nil => exact .refl s
  | cons event events ih =>
    obtain ⟨first, rest⟩ := List.forall_mem_cons.mp h
    have settled := (first s none).trans (steady_settle _)
    exact settled.trans (ih rest (settled.commands.trans none))

/-- What an event brings about and the others keep holds after the millisecond's events. -/
theorem takeDue_reaches {P : State → Prop} (keeps : ∀ {s t : State}, s.Steady t → P s → P t) {event : State → State}
    (mem : event ∈ timedEvents) (reaches : ∀ u : State, u.commands = [] → P (event u)) (none : s.commands = []) :
    P s.takeDue := by
  obtain ⟨before, behind, split⟩ := List.mem_iff_append.1 mem
  have steady := steady_of_mem_timedEvents
  rw [split] at steady
  unfold State.takeDue
  rw [split, List.foldl_append, List.foldl_cons]
  have first := steady_foldl_settle (fun e h => steady e (List.mem_append_left _ h)) none
  have waits := first.commands.trans none
  generalize before.foldl (fun t event => settle (event t)) s = u at waits
  have settled := (steady event (by simp) u waits).trans (steady_settle _)
  exact keeps (steady_foldl_settle (fun e h => steady e (by simp [h])) (settled.commands.trans waits))
    (keeps (steady_settle _) (reaches u waits))

theorem accrueSecond_secondDue (run : s.run = .run) (off : s.clock.secondDue = false) :
    ((List.finRange 8).foldl State.accrueSecond s).clock.secondDue = false := by
  have steady := State.Steady.foldl_of_run (fun t l => t.steady_accrueSecond l) (List.finRange 8) run
  exact Bool.eq_false_iff.2 fun on => Bool.eq_false_iff.1 off (steady.secondDue on)

theorem secondMark_reaches (s : State) : s.secondMark.clock.secondDue = false := by
  unfold State.secondMark
  split
  next =>
    dsimp only
    split
    next run => exact accrueSecond_secondDue run rfl
    next => rfl
  next off => exact Bool.eq_false_iff.2 off

theorem plantWrap_reaches (s : State) : s.plantWrap.clock.wrapDue = false := by
  unfold State.plantWrap
  split
  next =>
    generalize marked : ({ s with clock := { s.clock with wrapDue := false } } : State) = v
    have off : v.clock.wrapDue = false := by rw [← marked]
    have steady : v.Steady ((List.finRange 4).foldl State.computeBoundary v) :=
      .foldl (fun t g => t.steady_computeBoundary g) _ _
    exact Bool.eq_false_iff.2 fun on => Bool.eq_false_iff.1 off (steady.wrapDue on)
  next off => exact Bool.eq_false_iff.2 off

theorem boundaryEvent_reaches (s : State) (g : Fin 4) : (s.boundaryEvent g).boundaryDue g = false := by
  unfold State.boundaryEvent
  split
  next =>
    unfold State.boundaryReached State.computeBoundary
    generalize (s.timedBoundary g).touchBoundary g = v
    have boundary : (v.setBoundary g (v.boundaryFrom g)).boundary g = v.boundaryFrom g := vget_vset_same _ _ _
    unfold State.boundaryDue
    rw [boundary]
    exact v.boundaryFrom_not_due g
  next early => exact Bool.eq_false_iff.2 early

theorem forcedAnswer_reaches (none : s.commands = []) : s.forcedAnswer.AnswersLater := by
  unfold State.forcedAnswer
  split
  next due =>
    unfold State.answerEvent
    split
    next idle => exact fun x busy => nomatch idle.symm.trans busy
    next x _ =>
      rw [State.tryTake_of_busy (.inr ((s.steady_answered x).commands.trans none))]
      exact nofun
  next early =>
    intro x executing
    unfold State.answerDue at early
    rw [executing] at early
    simpa using early

/-- R108, R110: the closing set of a swap is stamped with the instant of its event. -/
theorem swap_closesLater (s : State) (g : Fin 4) (cause : Cause) : (s.swap g cause).ClosesLater g := by
  unfold State.swap
  generalize s.touchAll (s.loadedItems ++ s.configItems g) = v
  intro c closing
  have group : (v.swapFill g cause).group g =
      { v.group g with closing := some (v.closingOf g cause), period := nextPeriod (v.group g).period } :=
    vget_vset_same _ _ _
  rw [group] at closing
  obtain rfl := Option.some.inj closing
  exact Nat.lt_add_of_pos_right (by decide)

/-- R110, R123, R124: after a completion no close of the group is due. -/
theorem complete_reaches (s : State) (g : Fin 4) : (s.complete g).ClosesLater g := by
  have idle {v : State} (h : (v.group g).closing = none) : v.ClosesLater g := fun c closing => nomatch h.symm.trans closing
  unfold State.complete
  split
  next none => exact idle none
  next c₀ _ =>
    dsimp only
    generalize State.touchAll _ (c₀.items g) = v
    split
    next none => exact idle none
    next c _ =>
      split
      · exact swap_closesLater _ g .deferred
      · exact idle (by
          unfold State.deliver
          exact congrArg GroupClose.closing (vget_vset_same _ _ _))

theorem forcedCompletion_reaches (s : State) (g : Fin 4) : (s.forcedCompletion g).ClosesLater g := by
  unfold State.forcedCompletion
  split
  · exact complete_reaches s g
  next early =>
    intro c closing
    unfold State.completionDue at early
    rw [closing] at early
    exact Nat.lt_of_not_le fun late => early (decide_eq_true late)

/-- R93, R94: after a millisecond's events, with no command waiting, nothing of these is due. -/
theorem takeDue_leaves_nothing_due (none : s.commands = []) :
    s.takeDue.clock.secondDue = false ∧ s.takeDue.clock.wrapDue = false ∧ (∀ g, s.takeDue.boundaryDue g = false) ∧
      s.takeDue.AnswersLater ∧ ∀ g, s.takeDue.ClosesLater g := by
  have second := takeDue_reaches (P := fun t => t.clock.secondDue = false)
    (fun steady off => Bool.eq_false_iff.2 fun on => Bool.eq_false_iff.1 off (steady.secondDue on))
    (event := State.secondMark) (by simp [timedEvents]) (fun u _ => secondMark_reaches u) none
  have wrap := takeDue_reaches (P := fun t => t.clock.wrapDue = false)
    (fun steady off => Bool.eq_false_iff.2 fun on => Bool.eq_false_iff.1 off (steady.wrapDue on))
    (event := State.plantWrap) (by simp [timedEvents]) (fun u _ => plantWrap_reaches u) none
  have boundary (g : Fin 4) := takeDue_reaches (P := fun t => t.boundaryDue g = false) (fun steady => steady.boundary g)
    (event := fun t => t.boundaryEvent g) (by simp [timedEvents]) (fun u _ => boundaryEvent_reaches u g) none
  have answer := takeDue_reaches (P := State.AnswersLater) State.Steady.answersLater
    (event := State.forcedAnswer) (by simp [timedEvents]) (fun u none => forcedAnswer_reaches none) none
  have close (g : Fin 4) := takeDue_reaches (P := fun t => t.ClosesLater g) (fun steady => steady.closesLater)
    (event := fun t => t.forcedCompletion g) (by simp [timedEvents]) (fun u _ => forcedCompletion_reaches u g) none
  exact ⟨second, wrap, boundary, answer, close⟩

/-- R93, R94: the clock after one more millisecond. -/
theorem advance_eq (c : Clock) : c.advance = { c with
    elapsed := c.elapsed + 1
    ms := if 999 ≤ c.ms then 0 else c.ms + 1
    sec := if 999 ≤ c.ms then (if 4294967295 ≤ c.sec then 0 else c.sec + 1) else c.sec
    secondDue := decide ((c.elapsed + 1) % 1000 = 0)
    wrapDue := decide (999 ≤ c.ms ∧ 4294967295 ≤ c.sec) } := by
  by_cases full : 999 ≤ c.ms <;> simp [Clock.advance, full, cap32]

/-- R93, R94: a step on an empty queue. -/
theorem step_of_empty (empty : s.pending = []) :
    step s = .next { s.takeDue with clock := s.takeDue.clock.advance } := by
  unfold step
  rw [empty]
  dsimp only
  unfold State.tick
  generalize s.takeDue = v
  rfl

theorem step_empty (empty : s.pending = []) (due : s.takeDue = u) : step s = .next { u with clock := { u.clock with
    elapsed := s.clock.elapsed + 1
    ms := if 999 ≤ u.clock.ms then 0 else u.clock.ms + 1
    sec := if 999 ≤ u.clock.ms then (if 4294967295 ≤ u.clock.sec then 0 else u.clock.sec + 1) else u.clock.sec
    secondDue := decide ((s.clock.elapsed + 1) % 1000 = 0)
    wrapDue := decide (999 ≤ u.clock.ms ∧ 4294967295 ≤ u.clock.sec) } } := by
  have elapsed : u.clock.elapsed = s.clock.elapsed := due ▸ s.keeps_takeDue.elapsed
  rw [step_of_empty empty, due, advance_eq, elapsed]

/-- R93, R94: what stands after a millisecond's events with no command waiting. -/
theorem takeDue_quiet (due : s.takeDue = u) (none : s.commands = []) :
    u.clock.sec = s.clock.sec ∧ u.clock.ms = s.clock.ms ∧ u.clock.timeSet = s.clock.timeSet ∧ u.run = s.run ∧
      u.clock.secondDue = false ∧ u.clock.wrapDue = false ∧ (∀ g b, u.boundary g = some b → s.clock.sec < b) ∧
      (∀ x, u.executing = some x → s.clock.elapsed < x.due) ∧
      ∀ g c, (u.group g).closing = some c → s.clock.elapsed < c.stop.elapsed + 20 := by
  have steady : s.Steady u := due ▸ steady_foldl_settle steady_of_mem_timedEvents none
  obtain ⟨second, wrap, boundary, answer, close⟩ := takeDue_leaves_nothing_due none
  rw [due] at second wrap boundary answer close
  refine ⟨steady.sec, steady.ms, steady.timeSet, steady.run, second, wrap, fun g b stands => ?_,
    fun x executing => steady.elapsed ▸ answer x executing, fun g c closing => steady.elapsed ▸ close g c closing⟩
  have early := boundary g
  rw [boundaryDue_of_some stands, decide_eq_false_iff_not, Nat.not_le] at early
  exact steady.sec ▸ early

end

end Sys2Proof.Machine

open Sys2Proof Sys2Proof.Machine

/-- Settles O43: the event and the wrap by what their operations make of sound storage; the millisecond by what each
event keeps, and what each brings about for its own kind. -/
theorem boundaryEventsAndTheWrap : Obligations.BoundaryEventsAndTheWrap := by
  refine ⟨fun g s b sound stands => ⟨fun early => ?_, fun reached => ?_⟩, fun s sound wraps => ?_, ?_⟩
  · have idle : s.boundaryEvent g = s := if_neg (by simp [boundaryDue_of_some stands, early])
    exact next_settle idle
  · have acts : s.boundaryEvent g = s.boundaryReached g := if_pos (by simp [boundaryDue_of_some stands, reached])
    refine ⟨_, next_settle acts, ?_, ?_, fun i other => ?_⟩
    · rw [settle_boundary, boundaryReached_boundary sound, boundaryFrom_eq]
    · simp only [settle_group, boundaryReached_group sound, closes_iff]
    · have same := boundaryReached_agrees sound other
      exact ⟨(settle_group _ _).trans same.group, (settle_boundary _ _).trans same.boundary⟩
  · refine ⟨_, next_settle (plantWrap_of_sound sound wraps), ?_⟩
    simp only [settle_groups, settle_lineLive, settle_furnaceLive, settle_clock, settle_boundary, true_and]
    exact fun g => (vget_vgen _ g).trans (boundaryFrom_eq s g)
  · intro s empty
    exact ⟨step_empty empty (by unfold State.takeDue; rfl), takeDue_quiet (by unfold State.takeDue; rfl)⟩
end

section
/-! PROOFS. The figures of a closed period (R111 to R113, R117, R119, R120, R122, R128 to R131). -/

namespace Sys2Proof.Machine

set_option Elab.async false

/-! ### Nets and masses -/

/-- R111: the clamped net. -/
theorem LiveBase.net_eq (b : LiveBase) : b.net = if b.netExact < 0 then 0 else min b.netExact.toNat 281474976710655 := by
  unfold LiveBase.net
  split
  next below =>
    rw [Int.toNat_of_nonpos (Int.le_of_lt below)]
    rfl
  next => rfl

/-- R112: the diverted mass of the line entry. -/
theorem LineLive.divertedMass_eq (x : LineLive) : x.divertedMass =
    if 281474976710655 < x.formed.grams + x.diverted.grams then 281474976710655 - x.formed.grams else x.diverted.grams := by
  unfold LineLive.divertedMass LineLive.pulledOver LineLive.pulled
  simp only [decide_eq_true_eq]
  split
  next high => rw [Nat.min_eq_right (Nat.le_of_lt high)]
  next => rfl

/-! ### The lines of a record -/

theorem ClosingSet.shares_length (c : ClosingSet) : (shares c.net c.masses).length = c.lines.length := by
  simp [ClosingSet.masses]

theorem ClosingSet.entries_length (c : ClosingSet) : c.entries.length = c.lines.length := by
  simp [ClosingSet.entries, c.shares_length]

/-- R114 to R119: each line's entry is made of its closing figures and its share. -/
theorem ClosingSet.entries_getElem? (c : ClosingSet) {i : Nat} {y : ClosingLine} {e : LineEntry} (line : c.lines[i]? = some y)
    (entry : c.entries[i]? = some e) : e = lineEntry y ((shares c.net c.masses).getD i 0) := by
  have behind : i < (shares c.net c.masses).length := c.shares_length ▸ (List.getElem?_eq_some_iff.1 line).1
  rw [ClosingSet.entries, List.getElem?_map, List.getElem?_zip_eq_some (z := (y, (shares c.net c.masses)[i])) |>.2
    ⟨line, List.getElem?_eq_getElem behind⟩] at entry
  rw [List.getD_eq_getElem _ _ behind]
  exact (Option.some.inj entry).symm

/-- R119: a figure of the line entries that comes from the closing figures alone. -/
theorem ClosingSet.entries_map {α : Type} (c : ClosingSet) {f : LineEntry → α} {h : ClosingLine → α}
    (same : ∀ y m, f (lineEntry y m) = h y) : c.entries.map f = c.lines.map h := by
  have entry : (f ∘ fun p : ClosingLine × Nat => lineEntry p.1 p.2) = h ∘ Prod.fst := funext fun p => same p.1 p.2
  rw [ClosingSet.entries, List.map_map, entry, ← List.map_map, List.map_fst_zip (Nat.le_of_eq c.shares_length.symm)]

/-- R122: SAT by the line totals, said of the line entries. -/
theorem ClosingSet.saturates_eq (c : ClosingSet) : c.saturates =
    ((c.bases.any fun b => b.flags.sat || b.netOver) || (c.lines.any fun x => x.live.pulledOver) ||
      decide (281474976710655 < c.pulled) ||
      c.entries.any fun e => decide (281474976710655 < e.net + e.share)) := by
  unfold ClosingSet.saturates ClosingSet.entries
  rw [List.any_map]
  rfl

theorem GroupRecord.eq_update (r : GroupRecord) {f : RecordFlags} {p : FurnacePart} {q : RatioItem} (flags : r.flags = f)
    (furnace : r.furnace = p) (ratio : r.ratio = q) : r = { r with flags := f, furnace := p, ratio := q } := by
  rw [← flags, ← furnace, ← ratio]

/-- R119, R130: a line entry by the net and the diverted mass it is given. -/
theorem lineEntry_eq {y : ClosingLine} {n d : Nat} (net : y.live.base.net = n) (diverted : y.live.divertedMass = d) (m : Nat) :
    lineEntry y m = { lineEntry y m with
      net := n, total := min (n + m) 281474976710655, diverted := d
      pull := ratioItem (min (n + m) 281474976710655) y.live.pulled y.limits.lowMass false
      pack := ratioItem (min (n + m) 281474976710655) y.live.packed y.limits.lowMass y.live.rejOver } := by
  rw [← net, ← diverted]
  rfl

/-! ### Totals and bands -/

/-- R121: a present ratio outside its band. -/
theorem RatioItem.outOfBand_eq (x : RatioItem) (m : Limits) :
    x.outOfBand m = x.value.any fun v => decide (v < m.bandLow ∨ m.bandHigh < v) := by
  unfold RatioItem.outOfBand
  cases x.value <;> rfl

/-- R137: a furnace's totals with a closed period added. -/
theorem FurnaceTotals.add_eq (f : FurnaceTotals) (p : FurnacePart) : f.add p =
    (let add (x w : Nat) : Nat := min 281474976710655 (x + w)
     let tops (x w : Nat) : Bool := decide (281474976710655 < x + w)
     { net := add f.net p.net, unallotted := add f.unallotted (p.unallotted.getD 0), credit := add f.credit p.credit
       estimated := add f.estimated p.estimated, charge := add f.charge p.charge, cullet := add f.cullet p.cullet
       pulled := add f.pulled p.pulled, closes := min 4294967295 (f.closes + 1)
       sat := f.sat || tops f.net p.net || tops f.unallotted (p.unallotted.getD 0) || tops f.credit p.credit ||
         tops f.estimated p.estimated || tops f.charge p.charge || tops f.cullet p.cullet ||
         tops f.pulled p.pulled }) := by
  unfold FurnaceTotals.add
  simp only [satAdd_eq, bump_eq]
  rfl

/-- R137: a line's totals with a closed period added. -/
theorem LineTotals.add_eq (t : LineTotals) (e : LineEntry) : t.add e =
    (let add (x w : Nat) : Nat := min 281474976710655 (x + w)
     let tops (x w : Nat) : Bool := decide (281474976710655 < x + w)
     { net := add t.net e.net, share := add t.share e.share, total := add t.total e.total
       pulled := add t.pulled e.pulled, formed := add t.formed e.formed, diverted := add t.diverted e.diverted
       rejected := add t.rejected e.rejected, packed := add t.packed e.packed, cuts := add t.cuts e.cuts
       closes := min 4294967295 (t.closes + 1)
       sat := t.sat || tops t.net e.net || tops t.share e.share || tops t.total e.total || tops t.pulled e.pulled ||
         tops t.formed e.formed || tops t.diverted e.diverted || tops t.rejected e.rejected ||
         tops t.packed e.packed || tops t.cuts e.cuts }) := by
  unfold LineTotals.add
  simp only [satAdd_eq, bump_eq]
  rfl

/-- Entries of a vector worked on in turn, each by its own item of a list: an entry sees its items alone. -/
theorem vget_foldl_keyed {α β : Type} {n : Nat} (key : β → Fin n) (add : α → β → α) (l : List β) (v : Vector α n) (i : Fin n) :
    vget (l.foldl (fun v e => vset v (key e) (add (vget v (key e)) e)) v) i =
      (l.filter fun e => decide (key e = i)).foldl add (vget v i) := by
  induction l generalizing v with
  | nil => rfl
  | cons e l ih =>
    rw [List.foldl_cons, ih, List.filter_cons]
    by_cases same : key e = i
    · rw [if_pos (decide_eq_true same), ← same, vget_vset_same]
      rfl
    · rw [if_neg (by simpa using same), vget_vset_other _ same]

/-- Marks set in turn. -/
theorem vget_foldl_mark {n : Nat} (l : List (Fin n)) (v : Vector Bool n) (i : Fin n) :
    vget (l.foldl (fun v j => vset v j true) v) i = (vget v i || decide (i ∈ l)) := by
  induction l generalizing v with
  | nil => simp
  | cons j l ih =>
    rw [List.foldl_cons, ih, vget_vset]
    by_cases same : j = i
    · simp [same]
    · simp [same, Ne.symm same]

/-- R121: the lines out of their band. -/
theorem ClosingSet.mem_linesOut (c : ClosingSet) (l : Fin 8) : decide (l ∈ c.linesOut) =
    (c.lines.zip c.entries).any fun y =>
      decide (y.1.line = l) && (y.2.pull.outOfBand y.1.limits || y.2.pack.outOfBand y.1.limits) := by
  unfold ClosingSet.linesOut
  rw [Bool.eq_iff_iff, decide_eq_true_iff, List.mem_map, List.any_eq_true]
  simp only [List.mem_filter, Bool.and_eq_true, decide_eq_true_eq]
  exact exists_congr fun y => by tauto

end Sys2Proof.Machine
end

section
/-! PROOFS. The completion of a close (R121, R123, R124, R132, R137). -/

namespace Sys2Proof.Machine

set_option Elab.async false

section
variable {s t u : State}

/-! ### The attention unit after an event -/

theorem settle_isPending {x : Source} (lstp : x ≠ .lstp) (qful : x ≠ .qful) (s : State) :
    (settle s).attention.isPending x = s.attention.isPending x := by
  rw [settle_attention, State.attend_attention]
  exact s.refreshLevels_other lstp qful

/-- R179, R181: beside the levels and the last-alerted source an event's end moves no attention value. -/
theorem settle_attention_frame (s : State) : (settle s).attention = { s.attention with
    pending := (settle s).attention.pending, lastAlerted := (settle s).attention.lastAlerted } := by
  rw [settle_attention, State.attend_attention]
  rfl

/-! ### The queue (R132) -/

theorem outOfOrder_length (s : State) (r : GroupRecord) : (s.outOfOrder r).length =
    (s.records.filter fun x => decide (x.group = r.group ∧ r.period ≤ x.period)).length := by
  have entries : (List.range s.records.length).map (fun i => s.records[i]?) = s.records.map some := by
    refine List.ext_getElem (by simp) fun i hi _ => ?_
    simp
  have judged : (fun i : Nat => match s.records[i]? with
      | some x => decide (x.group = r.group ∧ r.period ≤ x.period)
      | none => false) = Option.any (fun x : GroupRecord => decide (x.group = r.group ∧ r.period ≤ x.period)) ∘ fun i => s.records[i]? := by
    funext i
    cases h : s.records[i]? <;> simp [h]
  unfold State.outOfOrder
  rw [List.length_reverse, ← List.countP_eq_length_filter, ← List.countP_eq_length_filter]
  refine (congrArg (fun p => List.countP p (List.range s.records.length)) judged).trans ?_
  rw [← List.countP_map, entries, List.countP_map]
  rfl

theorem discardRecord_sound (sound : s.sound) (i : Nat) : (s.discardRecord i).sound := by
  obtain ⟨latent, armed⟩ := sound
  refine ⟨?_, ?_⟩
  · show s.latent.filterMap _ = []
    rw [latent]
    rfl
  · show s.check.armed.bind _ = none
    rw [armed]
    rfl

theorem foldl_discardRecord_sound (sound : s.sound) (is : List Nat) : (is.foldl State.discardRecord s).sound := by
  induction is generalizing s with
  | nil => exact sound
  | cons i is ih => exact ih (discardRecord_sound sound i)

theorem appendRecord_sound (sound : s.sound) (r : GroupRecord) : (s.appendRecord r).sound := by
  have cleared := foldl_discardRecord_sound sound (s.outOfOrder r)
  unfold State.appendRecord
  dsimp only
  split
  · exact discardRecord_sound cleared 0
  · exact cleared

/-- R132: the queue and the lost count after an append. -/
theorem appendRecord_eq (s : State) (r : GroupRecord) :
    let kept := s.records.filter fun x => !decide (x.group = r.group ∧ r.period ≤ x.period)
    let full := 32 ≤ kept.length
    let gone := s.records.length - kept.length + if full then 1 else 0
    (s.appendRecord r).records = (if full then kept.drop 1 else kept) ++
        [{ r with flags := { r.flags with overwrote := decide (gone ≠ 0) } }] ∧
      (s.appendRecord r).lost = if gone = 0 then s.lost else min 65535 (s.lost + gone) := by
  intro kept full gone
  have records : ((s.outOfOrder r).foldl State.discardRecord s).records = kept := s.foldl_discardRecord_outOfOrder r
  have lost := s.foldl_discardRecord_lost (s.outOfOrder r)
  have length : (s.outOfOrder r).length = s.records.length - kept.length := by
    have split : s.records.length = _ + kept.length :=
      List.length_eq_length_filter_add fun x : GroupRecord => decide (x.group = r.group ∧ r.period ≤ x.period)
    rw [outOfOrder_length]
    omega
  have doomed : (!(s.outOfOrder r).isEmpty) = decide ((s.outOfOrder r).length ≠ 0) := by
    cases s.outOfOrder r <;> simp
  unfold State.appendRecord
  dsimp only
  rw [doomed, length]
  rw [length] at lost
  generalize (s.outOfOrder r).foldl State.discardRecord s = v at records lost
  rw [records]
  by_cases crowded : full
  · have discards : decide (Config.queueRecords ≤ kept.length) = true := decide_eq_true crowded
    have one : gone = s.records.length - kept.length + 1 := congrArg _ (if_pos crowded)
    rw [discards, if_pos rfl, if_pos crowded, Bool.or_true]
    refine ⟨?_, ?_⟩
    · show v.records.eraseIdx 0 ++ _ = _
      rw [records, List.eraseIdx_zero, ← List.drop_one]
      simp [one]
    · show satAdd cap16 v.lost 1 = _
      rw [satAdd_eq, lost]
      show min 65535 _ = _
      split <;> split <;> omega
  · have stays : decide (Config.queueRecords ≤ kept.length) = false := decide_eq_false crowded
    have none : gone = s.records.length - kept.length := congrArg _ (if_neg crowded)
    rw [stays, if_neg Bool.false_ne_true, if_neg crowded, Bool.or_false, none]
    exact ⟨congrArg (· ++ _) records, lost⟩

/-! ### RATO and PCLS (R121, R123) -/

theorem isPending_setPending (a : Attention) (x y : Source) (b : Bool) :
    (a.setPending x b).isPending y = if x = y then b else a.isPending y := by
  unfold Attention.isPending Attention.setPending
  dsimp only
  rw [vget_vset]
  by_cases same : x = y
  · rw [if_pos same, if_pos (congrArg Source.code same)]
  · rw [if_neg same, if_neg fun h => same (Source.code_injective h)]

theorem raiseRato_isPending (s : State) (f : Option (Fin 4)) (ls : List (Fin 8)) :
    (s.raiseRato f ls).attention.isPending .rato = (s.attention.isPending .rato || f.isSome || (List.finRange 8).any fun l => decide (l ∈ ls)) := by
  have lines : ((List.finRange 8).any fun l => decide (l ∈ ls)) = decide (ls ≠ []) := by
    cases ls with
    | nil => simp
    | cons l ls => simp
  unfold State.raiseRato
  rw [lines]
  by_cases raised : f.isSome = true ∨ ls ≠ []
  · rw [if_pos raised]
    refine (isPending_setPending _ _ _ _).trans ?_
    rw [if_pos rfl, Bool.or_assoc, ← Bool.decide_coe f.isSome, ← Bool.decide_or, decide_eq_true raised, Bool.or_true]
  · rw [if_neg raised]
    rw [not_or, Bool.not_eq_true] at raised
    rw [raised.1, decide_eq_false raised.2, Bool.or_false, Bool.or_false]

theorem raiseRato_furnaces (s : State) (out : Bool) (g i : Fin 4) (ls : List (Fin 8)) :
    vget (s.raiseRato (if out then some g else none) ls).attention.ratoFurnaces i =
      (vget s.attention.ratoFurnaces i || decide (i = g) && out) := by
  unfold State.raiseRato
  cases out with
  | true =>
    rw [if_pos (.inl rfl)]
    refine (vget_vset _ _ _ _).trans ?_
    by_cases same : g = i
    · simp [same]
    · simp [same, Ne.symm same]
  | false =>
    rw [Bool.and_false, Bool.or_false, if_neg Bool.false_ne_true]
    split <;> rfl

theorem raiseRato_lines (s : State) (f : Option (Fin 4)) (ls : List (Fin 8)) (l : Fin 8) :
    vget (s.raiseRato f ls).attention.ratoLines l = (vget s.attention.ratoLines l || decide (l ∈ ls)) := by
  unfold State.raiseRato
  split
  next => exact vget_foldl_mark ls _ l
  next kept =>
    rw [not_or, Classical.not_not] at kept
    rw [kept.2]
    simp

/-! ### The delivery (R123) -/

theorem delivered_frame (s : State) (g : Fin 4) (c : ClosingSet) : s.delivered g c = { s with
    records := (s.appendRecord (c.record g)).records
    lost := (s.appendRecord (c.record g)).lost
    check := (s.appendRecord (c.record g)).check
    latent := (s.appendRecord (c.record g)).latent
    furnaceTotals := (s.addTotals (c.record g)).furnaceTotals
    lineTotals := (s.addTotals (c.record g)).lineTotals
    attention := ((s.raiseRato (if c.furnaceOut then some g else none) c.linesOut).raisePcls g).attention } := by
  unfold State.delivered State.raisePcls
  generalize (if c.furnaceOut then some g else none) = f
  rw [State.appendRecord_frame]
  unfold State.raiseRato
  split <;> rfl

theorem delivered_sound (sound : s.sound) (g : Fin 4) (c : ClosingSet) : (s.delivered g c).sound := by
  rw [delivered_frame]
  exact appendRecord_sound sound _

/-- R123, R124: the completion in sound storage. -/
theorem complete_of_sound (sound : s.sound) {g : Fin 4} {c : ClosingSet} (closing : (s.group g).closing = some c) :
    s.complete g = if (s.group g).deferred then
        ((s.delivered g c).setGroup g { s.group g with closing := none, deferred := false }).swap g .deferred
      else (s.delivered g c).setGroup g { s.group g with closing := none } := by
  unfold State.complete
  simp only [closing, touchAll_of_sound sound, ite_self, State.deliver_eq, State.group_delivered,
    State.group_setGroup_same, State.setGroup_setGroup]

/-- R123, R124: beside the groups, the live sets and what a swap clears, a completion leaves what it delivers. -/
theorem complete_frame (sound : s.sound) {g : Fin 4} {c : ClosingSet} (closing : (s.group g).closing = some c) :
    s.complete g = { s.delivered g c with
      check := (s.complete g).check, furnaceLive := (s.complete g).furnaceLive, lineLive := (s.complete g).lineLive
      lineInputs := (s.complete g).lineInputs, groups := (s.complete g).groups, latent := (s.complete g).latent } := by
  have whole := complete_of_sound sound closing
  have delivered := delivered_sound sound g c
  generalize s.complete g = w at whole
  generalize s.delivered g c = v at whole delivered
  by_cases deferred : (s.group g).deferred = true
  · rw [if_pos deferred] at whole
    generalize emptied : v.setGroup g { s.group g with closing := none, deferred := false } = x at whole
    have sound : x.sound := by rw [← emptied]; exact delivered
    rw [whole, swap_frame sound, ← emptied]
    rfl
  · rw [if_neg deferred] at whole
    rw [whole]
    rfl

/-- R123: no other group changes. -/
theorem complete_other (sound : s.sound) {g i : Fin 4} {c : ClosingSet} (closing : (s.group g).closing = some c)
    (other : i ≠ g) : (s.complete g).group i = s.group i ∧ (s.complete g).fLive i = s.fLive i := by
  have delivered := delivered_sound sound g c
  have group := s.group_delivered g i c
  have fLive : (s.delivered g c).fLive i = s.fLive i := (congrArg (fun x => x.fLive i) (delivered_frame s g c) :)
  have emptied (x : GroupClose) : ((s.delivered g c).setGroup g x).group i = s.group i :=
    (vget_vset_other _ other.symm _).trans group
  rw [complete_of_sound sound closing]
  split
  · have sound (x : GroupClose) : ((s.delivered g c).setGroup g x).sound := delivered
    rw [swap_group_other (sound _) other, swap_fLive_other (sound _) other]
    exact ⟨emptied _, fLive⟩
  · exact ⟨emptied _, fLive⟩

/-- R124, R107: a completion with nothing deferred. -/
theorem complete_of_not_deferred (sound : s.sound) {g : Fin 4} {c : ClosingSet} (closing : (s.group g).closing = some c)
    (kept : (s.group g).deferred = false) : (s.complete g).group g = { s.group g with closing := none } ∧
      (s.complete g).furnaceLive = s.furnaceLive ∧ (s.complete g).lineLive = s.lineLive := by
  have frame := delivered_frame s g c
  rw [complete_of_sound sound closing, if_neg (by rw [kept]; exact Bool.false_ne_true)]
  exact ⟨vget_vset_same _ _ _, (congrArg State.furnaceLive frame :), (congrArg State.lineLive frame :)⟩

/-- R124, R107: a deferred close swaps at once. -/
theorem complete_of_deferred (sound : s.sound) {g : Fin 4} {c : ClosingSet} (closing : (s.group g).closing = some c)
    (deferred : (s.group g).deferred = true) : ∃ x, (s.complete g).group g =
        { closing := some x, deferred := false, period := nextPeriod (s.group g).period } ∧
      x.cause = .deferred ∧ x.period = (s.group g).period ∧ x.furnace = s.fLive g ∧
      (x.lines.map fun y => (y.line, y.live)) = (s.linesOf g).map (fun l => (l, s.lLive l)) ∧
      x.halted = decide (s.run = .halt) := by
  have frame := delivered_frame s g c
  have delivered := delivered_sound sound g c
  rw [complete_of_sound sound closing, if_pos deferred]
  generalize s.delivered g c = v at frame delivered
  generalize emptied : v.setGroup g { s.group g with closing := none, deferred := false } = w
  have group : w.group g = { s.group g with closing := none, deferred := false } := by
    rw [← emptied]
    exact vget_vset_same _ _ _
  have sound : w.sound := by rw [← emptied]; exact delivered
  rw [swap_group sound, group]
  refine ⟨_, rfl, rfl, (congrArg GroupClose.period group :), ?_, ?_, ?_⟩
  · show w.fLive g = _
    rw [← emptied, frame]
    rfl
  · refine List.map_map.trans ?_
    rw [← emptied, frame]
    rfl
  · show decide (w.run = .halt) = _
    rw [← emptied, frame]
    rfl

end

end Sys2Proof.Machine

open Sys2Proof Sys2Proof.Machine

/-- Settles O46: what is delivered, by the append, the totals and the requests; what becomes of the groups, by the
deferred flag; and the figures of the record. -/
theorem completionDeliversTheRecord : Obligations.CompletionDeliversTheRecord := by
  refine ⟨fun g s idle => next_settle ?_, fun g s c sound closing => ?_, fun g c => ?_⟩
  · unfold State.complete
    rw [idle]
  · intro r out lineOut kept full gone add tops line f p
    have frame := complete_frame sound closing
    have delivered := delivered_frame s g c
    obtain ⟨records, lost⟩ := appendRecord_eq s r
    have outs (x : RatioItem) (m : Limits) : x.outOfBand m = out x m := x.outOfBand_eq m
    have lineOuts (l : Fin 8) : decide (l ∈ c.linesOut) = lineOut l := by
      rw [c.mem_linesOut]
      simp only [outs]
      rfl
    have attention : (s.complete g).attention =
        ((s.raiseRato (if c.furnaceOut then some g else none) c.linesOut).raisePcls g).attention :=
      (congrArg State.attention frame :).trans (congrArg State.attention delivered :)
    have told := settle_attention_frame (s.complete g)
    rw [attention] at told
    have furnaceOut : c.furnaceOut = out p.melt c.limits := outs _ _
    have furnaceTotals : (s.complete g).furnaceTotals = vset s.furnaceTotals g (f.add p) :=
      (congrArg State.furnaceTotals frame :).trans (congrArg State.furnaceTotals delivered :)
    have lineTotals : (s.complete g).lineTotals =
        r.lines.foldl (fun v e => vset v e.line ((vget v e.line).add e)) s.lineTotals :=
      (congrArg State.lineTotals frame :).trans (congrArg State.lineTotals delivered :)
    have lineAdd : LineTotals.add = line := funext fun t => funext fun e => t.add_eq e
    refine ⟨_, rfl, ?_, ?_, ?_, fun i other => ?_, fun l => ?_, ?_, ?_, fun i => ?_, fun l => ?_, ?_, fun i other => ?_, ?_,
      fun kept => ?_, fun deferred => ?_⟩
    · rw [settle_records]
      exact ((congrArg State.records frame :).trans (congrArg State.records delivered :)).trans records
    · rw [settle_lost]
      exact ((congrArg State.lost frame :).trans (congrArg State.lost delivered :)).trans lost
    · rw [settle_furnaceTotals, furnaceTotals, vget_vset_same]
      exact f.add_eq p
    · rw [settle_furnaceTotals, furnaceTotals, vget_vset_other _ other.symm]
    · rw [settle_lineTotals, lineTotals, vget_foldl_keyed LineEntry.line, lineAdd]
    · rw [settle_isPending (by decide) (by decide), attention]
      exact (isPending_setPending _ _ _ _).trans (if_pos rfl)
    · exact (congrArg (fun a => vget a.pcls g) told).trans (vget_vset_same _ _ _)
    · rw [← furnaceOut]
      exact (congrArg (fun a => vget a.ratoFurnaces i) told).trans (raiseRato_furnaces s _ g i _)
    · rw [← lineOuts]
      exact (congrArg (fun a => vget a.ratoLines l) told).trans (raiseRato_lines s _ _ l)
    · rw [settle_isPending (by decide) (by decide), attention, ← furnaceOut, ← funext lineOuts]
      refine ((isPending_setPending _ _ _ _).trans (if_neg (by decide))).trans ((raiseRato_isPending s _ _).trans ?_)
      cases c.furnaceOut <;> rfl
    · exact ⟨(settle_group _ i).trans (complete_other sound closing other).1,
        (settle_fLive _ i).trans (complete_other sound closing other).2⟩
    · rw [settle_streams]
      exact (congrArg State.streams frame :).trans (congrArg State.streams delivered :)
    · rw [settle_group, settle_furnaceLive, settle_lineLive]
      exact complete_of_not_deferred sound closing kept
    · rw [settle_group]
      exact complete_of_deferred sound closing deferred
  · intro r most exact net pulled packed f mass batch bases
    have nets : ∀ b : LiveBase, b.net = net b := fun b => b.net_eq
    refine ⟨r.eq_update ?_ ?_ ?_, c.entries_length, fun i y e line entry => ?_⟩
    · have saturates := c.saturates_eq
      exact congrArg (fun b => { c.flags with sat := b }) saturates
    · have furnace := nets c.furnace.base
      exact congrArg (fun n => { c.furnacePart with net := n, unallotted := if mass = 0 then some n else none, melt := ratioItem n mass c.limits.lowMass false }) furnace
    · have sums : (c.entries.map (·.net)).sum = (c.lines.map fun y => net y.live.base).sum :=
        congrArg List.sum (c.entries_map fun y _ => nets y.live.base)
      have masses : (c.entries.map (·.packed)).sum = (c.lines.map fun y => packed y.live).sum :=
        congrArg List.sum (c.entries_map fun _ _ => rfl)
      refine (congrArg (fun n => ratioItem (c.net + n) (c.entries.map (·.packed)).sum c.limits.lowMass false) sums).trans ?_
      rw [masses]
      exact congrArg (fun n => ratioItem (n + _) _ c.limits.lowMass false) (nets c.furnace.base)
    · intro x total
      obtain rfl := c.entries_getElem? line entry
      exact ⟨lineEntry_eq (nets _) y.live.divertedMass_eq _,
        congrArg (fun n => (shares n c.masses).getD i 0) (nets c.furnace.base)⟩
end

section
/-! PROOFS. Bookings, estimates and silence of streams in sound storage (R39, R42, R45, R58, R60, R64). -/

namespace Sys2Proof.Machine

set_option Elab.async false

section
variable {s t u : State}

/-! ### Live sets by account -/

theorem liveBase_setLiveBase_other {a i : Account} (other : i ≠ a) (s : State) (b : LiveBase) :
    (s.setLiveBase a b).liveBase i = s.liveBase i := by
  cases a with
  | furnace f =>
    cases i with
    | furnace j => exact congrArg FurnaceLive.base (vget_vset_other _ (fun h => other (by rw [h])) _)
    | line l => rfl
  | line l =>
    cases i with
    | furnace f => rfl
    | line j => exact congrArg LineLive.base (vget_vset_other _ (fun h => other (by rw [h])) _)

theorem setLiveBase_liveBase (s : State) (a : Account) : s.setLiveBase a (s.liveBase a) = s := by
  cases a with
  | furnace f => exact congrArg (fun v => { s with furnaceLive := v }) (vset_vget _ _)
  | line l => exact congrArg (fun v => { s with lineLive := v }) (vset_vget _ _)

/-- The other figures of a furnace's live set stay at a write of its shared part. -/
theorem fLive_setLiveBase (s : State) (a : Account) (b : LiveBase) (f : Fin 4) :
    (s.setLiveBase a b).fLive f = { s.fLive f with base := ((s.setLiveBase a b).fLive f).base } := by
  cases a with
  | line l => rfl
  | furnace g =>
    by_cases same : g = f
    · have written : (s.setLiveBase (.furnace g) b).fLive f = { s.fLive g with base := b } := by
        rw [← same]
        exact vget_vset_same _ _ _
      rw [written, same]
    · have kept : (s.setLiveBase (.furnace g) b).fLive f = s.fLive f := vget_vset_other _ same _
      rw [kept]

theorem lLive_setLiveBase (s : State) (a : Account) (b : LiveBase) (l : Fin 8) :
    (s.setLiveBase a b).lLive l = { s.lLive l with base := ((s.setLiveBase a b).lLive l).base } := by
  cases a with
  | furnace f => rfl
  | line i =>
    by_cases same : i = l
    · have written : (s.setLiveBase (.line i) b).lLive l = { s.lLive i with base := b } := by
        rw [← same]
        exact vget_vset_same _ _ _
      rw [written, same]
    · have kept : (s.setLiveBase (.line i) b).lLive l = s.lLive l := vget_vset_other _ same _
      rw [kept]

/-! ### Bookings of energies and credits (R58, R60, R64) -/

/-- R58, R60, R64: the shared part of a live set with an amount of an ENERGY or CREDIT stream booked, tallied as an
estimate where it is one. -/
def StreamEntry.booked (e : StreamEntry) (b : LiveBase) (w : Nat) (est : Bool) : LiveBase :=
  let amount := if e.category = .energy then b.addEnergy e.kind w else b.addCredit w
  if est then amount.addEstimated w else amount

variable {e : StreamEntry}

theorem estimated_iff (c : Category) : c.estimated = true ↔ c = .energy ∨ c = .credit := by
  cases c <;> decide

theorem book_of_estimated (energetic : e.category.estimated = true) (s : State) (w : Nat) (est : Bool) :
    s.book e w est = s.setLiveBase e.target (e.booked (s.liveBase e.target) w est) := by
  unfold State.book StreamEntry.booked
  rcases (estimated_iff _).1 energetic with category | category <;> rw [category] <;> rfl

theorem booked_energy (energetic : e.category.estimated = true) (b : LiveBase) (w : Nat) (est : Bool) (kd : Kind) :
    (e.booked b w est).energy.get kd =
      if e.category = .energy ∧ kd = e.kind then min cap48 (b.energy.get kd + w) else b.energy.get kd := by
  have put : (b.energy.put e.kind (satAdd cap48 (b.energy.get e.kind) w)).get kd =
      if kd = e.kind then min cap48 (b.energy.get kd + w) else b.energy.get kd := by
    rw [Energy.get_put, satAdd_eq]
    by_cases same : kd = e.kind
    · rw [if_pos same, if_pos same, same]
    · rw [if_neg same, if_neg same]
  rcases (estimated_iff _).1 energetic with category | category
  · cases est <;> simpa [StreamEntry.booked, category, LiveBase.addEnergy, LiveBase.addEstimated] using put
  · cases est <;> simp [StreamEntry.booked, category, LiveBase.addCredit, LiveBase.addEstimated]

theorem booked_credit (energetic : e.category.estimated = true) (b : LiveBase) (w : Nat) (est : Bool) :
    (e.booked b w est).credit = if e.category = .credit then min cap48 (b.credit + w) else b.credit := by
  rcases (estimated_iff _).1 energetic with category | category
  · cases est <;> simp [StreamEntry.booked, category, LiveBase.addEnergy, LiveBase.addEstimated]
  · cases est <;> simp [StreamEntry.booked, category, LiveBase.addCredit, LiveBase.addEstimated, satAdd_eq]

theorem booked_estimated (b : LiveBase) (w : Nat) (est : Bool) :
    (e.booked b w est).estimated = if est then min cap48 (b.estimated + w) else b.estimated := by
  by_cases category : e.category = .energy
  · cases est <;> simp [StreamEntry.booked, category, LiveBase.addEnergy, LiveBase.addEstimated, satAdd_eq]
  · cases est <;> simp [StreamEntry.booked, category, LiveBase.addCredit, LiveBase.addEstimated, satAdd_eq]

/-- A booking leaves the correction, the held streams and the start. -/
theorem booked_rest (b : LiveBase) (w : Nat) (est : Bool) : (e.booked b w est).correction = b.correction ∧
    (e.booked b w est).held = b.held := by
  by_cases category : e.category = .energy
  · cases est <;> simp [StreamEntry.booked, category, LiveBase.addEnergy, LiveBase.addEstimated]
  · cases est <;> simp [StreamEntry.booked, category, LiveBase.addCredit, LiveBase.addEstimated]

/-! ### Estimates (R62 to R65) -/

/-- R62 to R65: the run state and the category let an estimate be booked. -/
abbrev State.estimates (s : State) (e : StreamEntry) : Prop := s.run = .run ∧ (e.category = .energy ∨ e.category = .credit)

/-- R64: an estimate, a count of 1/65536 raw units, in 1/65536 of a kilojoule with the remainder before it. -/
def Stream.estimateWhole (st : Stream) (amount : Nat) : Nat := amount * st.entry.factor / 65536 + st.live.remainder

/-- R62 to R65: the shared part of the target's live set after an estimate. -/
def State.estimateBase (s : State) (st : Stream) (amount : Nat) : LiveBase :=
  if s.estimates st.entry then
    st.entry.booked (s.liveBase st.entry.target) (st.estimateWhole amount / 65536) true
  else s.liveBase st.entry.target

/-- R62 to R65: the stream after an estimate. -/
def State.estimateLive (s : State) (st : Stream) (amount : Nat) : StreamLive := { st.live with
  remainder := if s.estimates st.entry then st.estimateWhole amount % 65536 else st.live.remainder
  pending := if s.estimates st.entry then min (st.live.pending + amount) (cap48 * 65536 + 65535) else st.live.pending }

theorem estimate_of_sound (sound : s.sound) {k : Fin 48} {st : Stream} (stream : s.stream k = some st) (amount : Nat) :
    s.estimate k amount =
      (s.setLiveBase st.entry.target (s.estimateBase st amount)).setStreamLive k st (s.estimateLive st amount) := by
  unfold State.estimate State.estimateBase State.estimateLive
  rw [stream]
  dsimp only
  rw [touch_of_sound sound]
  by_cases books : s.estimates st.entry
  · have energetic := (estimated_iff _).2 books.2
    rw [if_pos ⟨energetic, books.1⟩, if_pos books, if_pos books, if_pos books, book_of_estimated energetic]
    rfl
  · have idle : ¬(st.entry.category.estimated = true ∧ s.run = .run) := fun h => books ⟨h.2, (estimated_iff _).1 h.1⟩
    rw [if_neg idle, if_neg books, if_neg books, if_neg books, setLiveBase_liveBase]
    have same : s.setStream k (some st) = s := by
      rw [← stream]
      exact congrArg (fun v => { s with streams := v }) (vset_vget _ _)
    exact same.symm

/-- R45: the shared part of the target's live set once the stream is held, which it is in RUN. -/
def State.heldBase (s : State) (k : Fin 48) (b : LiveBase) : LiveBase := if s.run = .run then b.hold k else b

theorem addHeld_of_sound (sound : s.sound) (k : Fin 48) (e : StreamEntry) :
    s.addHeld k e = s.setLiveBase e.target (s.heldBase k (s.liveBase e.target)) := by
  unfold State.addHeld State.heldBase
  split
  · refine rewritten_of_sound ?_ _
    rw [State.setLiveBase_frame]
    exact sound
  · exact (setLiveBase_liveBase _ _).symm

theorem vset_vset {α : Type} {n : Nat} (v : Vector α n) (i : Fin n) (x y : α) : vset (vset v i x) i y = vset v i y := by
  simp [vset]

theorem setLiveBase_setLiveBase (s : State) (a : Account) (b c : LiveBase) :
    (s.setLiveBase a b).setLiveBase a c = s.setLiveBase a c := by
  cases a with
  | furnace f =>
    have entry : (s.setLiveBase (.furnace f) b).fLive f = { s.fLive f with base := b } := vget_vset_same _ _ _
    show ({ s with furnaceLive := vset (vset _ _ _) f { (s.setLiveBase (.furnace f) b).fLive f with base := c } } : State) = _
    rw [entry]
    exact congrArg (fun v => { s with furnaceLive := v }) (vset_vset _ _ _ _)
  | line l =>
    have entry : (s.setLiveBase (.line l) b).lLive l = { s.lLive l with base := b } := vget_vset_same _ _ _
    show ({ s with lineLive := vset (vset _ _ _) l { (s.setLiveBase (.line l) b).lLive l with base := c } } : State) = _
    rw [entry]
    exact congrArg (fun v => { s with lineLive := v }) (vset_vset _ _ _ _)

/-! ### Silence (R39, R42) -/

/-- R39, R62: the estimate of a stream's silence up to an instant, in 1/65536 raw units. -/
def Stream.silence (st : Stream) (now : Nat) : Nat :=
  st.live.heldRate * ((now - st.live.lastGood.getD now) / 1000)

/-- R39: the stream after its entry to STALE. -/
def State.staleLive (s : State) (st : Stream) : StreamLive := { s.estimateLive st (st.silence s.now) with
  state := .stale, staleAt := none, deferral := false, intervalAt := some (s.now + st.entry.interval * 1000) }

/-- R39, R45: the shared part of the target's live set after the stream's entry to STALE. -/
def State.staleBase (s : State) (k : Fin 48) (st : Stream) : LiveBase :=
  s.heldBase k (s.estimateBase st (st.silence s.now))

theorem setStreamLive_setStreamLive (s : State) (k : Fin 48) (st : Stream) (v w x : StreamLive) :
    (s.setStreamLive k st v).setStreamLive k { st with live := w } x = s.setStreamLive k st x :=
  congrArg (fun l => { s with streams := l }) (vset_vset _ _ _ _)

/-- A stream written before or after a live set. -/
theorem setStreamLive_setLiveBase (s : State) (k : Fin 48) (st : Stream) (v : StreamLive) (a : Account) (b : LiveBase) :
    (s.setStreamLive k st v).setLiveBase a b = (s.setLiveBase a b).setStreamLive k st v := by
  cases a <;> rfl

/-- R39, R45: an estimate, then STRM STALE and the held stream. -/
theorem estimate_then_held (sound : s.sound) (k : Fin 48) (st : Stream) (v : StreamLive) (amount : Nat) :
    (((s.setStreamLive k st v).estimate k amount).raiseStream k .stale).addHeld k st.entry =
      ((s.setLiveBase st.entry.target (s.heldBase k (s.estimateBase { st with live := v } amount))).setStreamLive k st
        (s.estimateLive { st with live := v } amount)).raiseStream k .stale := by
  have entered : (s.setStreamLive k st v).stream k = some { st with live := v } := State.stream_setStreamLive_same ..
  rw [estimate_of_sound (s := s.setStreamLive k st v) sound entered, setStreamLive_setLiveBase, setStreamLive_setStreamLive]
  show ((((s.setLiveBase st.entry.target (s.estimateBase { st with live := v } amount)).setStreamLive k st
    (s.estimateLive { st with live := v } amount)).raiseStream k .stale).addHeld k st.entry) = _
  generalize s.estimateBase { st with live := v } amount = base
  generalize s.estimateLive { st with live := v } amount = live
  have booked : (((s.setLiveBase st.entry.target base).setStreamLive k st live).raiseStream k .stale).sound := by
    rw [State.setLiveBase_frame]
    exact sound
  have run : (((s.setLiveBase st.entry.target base).setStreamLive k st live).raiseStream k .stale).run = s.run := by
    rw [State.setLiveBase_frame]
    rfl
  have target : (((s.setLiveBase st.entry.target base).setStreamLive k st live).raiseStream k .stale).liveBase
      st.entry.target = base := by
    refine Eq.trans ?_ (State.liveBase_setLiveBase_same (s := s) st.entry.target base)
    cases st.entry.target <;> rfl
  have moved (b : LiveBase) : (((s.setLiveBase st.entry.target base).setStreamLive k st live).raiseStream k
      .stale).setLiveBase st.entry.target b =
      (((s.setLiveBase st.entry.target base).setLiveBase st.entry.target b).setStreamLive k st live).raiseStream k .stale := by
    cases st.entry.target <;> rfl
  rw [addHeld_of_sound booked, target, moved, setLiveBase_setLiveBase]
  unfold State.heldBase
  rw [run]

theorem enterStale_of_sound (sound : s.sound) {k : Fin 48} {st : Stream} (stream : s.stream k = some st) :
    s.enterStale k = ((s.setLiveBase st.entry.target (s.staleBase k st)).setStreamLive k st (s.staleLive st)).raiseStream
      k .stale := by
  unfold State.enterStale
  rw [stream]
  exact estimate_then_held sound k st _ _

end

end Sys2Proof.Machine
end

section
/-! PROOFS. The timers of the streams (R33, R39 to R42, R45, R62 to R65). -/

namespace Sys2Proof.Machine

set_option Elab.async false

section
variable {s t u : State}

/-! ### A stream's silence in the live sets, the table and the requests -/

/-- The shared part of the target's live set and the stream's live state, written at one event. -/
def State.written (s : State) (k : Fin 48) (st : Stream) (base : LiveBase) (live : StreamLive) : State :=
  (s.setLiveBase st.entry.target base).setStreamLive k st live

/-- The same with an STRM cause raised. -/
def State.recorded (s : State) (k : Fin 48) (st : Stream) (base : LiveBase) (live : StreamLive) (c : StreamCause) : State :=
  (s.written k st base live).raiseStream k c

section
variable (s : State) (k : Fin 48) (st : Stream) (base : LiveBase) (live : StreamLive) (c : StreamCause)

theorem written_frame : s.written k st base live = { s with
    furnaceLive := (s.written k st base live).furnaceLive, lineLive := (s.written k st base live).lineLive
    streams := vset s.streams k (some { st with live := live }) } := by
  unfold State.written
  cases st.entry.target <;> rfl

theorem recorded_frame : s.recorded k st base live c = { s with
    furnaceLive := (s.written k st base live).furnaceLive, lineLive := (s.written k st base live).lineLive
    streams := vset s.streams k (some { st with live := live })
    attention := (s.raiseStream k c).attention } := by
  unfold State.recorded
  rw [written_frame]
  rfl

theorem written_stream : (s.written k st base live).stream k = some { st with live := live } := by
  rw [written_frame]
  exact vget_vset_same _ _ _

theorem written_stream_other {j : Fin 48} (other : j ≠ k) : (s.written k st base live).stream j = s.stream j := by
  rw [written_frame]
  exact vget_vset_other _ other.symm _

theorem written_liveBase (a : Account) : (s.written k st base live).liveBase a =
    if a = st.entry.target then base else s.liveBase a := by
  have moved : (s.written k st base live).liveBase a = (s.setLiveBase st.entry.target base).liveBase a := by
    cases a <;> rfl
  rw [moved]
  split
  next same => rw [same, State.liveBase_setLiveBase_same]
  next other => exact liveBase_setLiveBase_other other s base

theorem written_fLive (f : Fin 4) : (s.written k st base live).fLive f =
    { s.fLive f with base := ((s.written k st base live).fLive f).base } :=
  fLive_setLiveBase s st.entry.target base f

theorem written_lLive (l : Fin 8) : (s.written k st base live).lLive l =
    { s.lLive l with base := ((s.written k st base live).lLive l).base } :=
  lLive_setLiveBase s st.entry.target base l

theorem recorded_stream : (s.recorded k st base live c).stream k = some { st with live := live } :=
  written_stream s k st base live

theorem recorded_stream_other {j : Fin 48} (other : j ≠ k) : (s.recorded k st base live c).stream j = s.stream j :=
  written_stream_other s k st base live other

theorem recorded_liveBase (a : Account) : (s.recorded k st base live c).liveBase a =
    if a = st.entry.target then base else s.liveBase a := by
  rw [← written_liveBase s k st base live a]
  cases a <;> rfl

theorem recorded_fLive (f : Fin 4) : (s.recorded k st base live c).fLive f =
    { s.fLive f with base := ((s.recorded k st base live c).fLive f).base } :=
  written_fLive s k st base live f

theorem recorded_lLive (l : Fin 8) : (s.recorded k st base live c).lLive l =
    { s.lLive l with base := ((s.recorded k st base live c).lLive l).base } :=
  written_lLive s k st base live l

theorem raiseStream_isPending : (s.raiseStream k c).attention.isPending .strm = true :=
  (isPending_setPending _ _ _ _).trans (if_pos rfl)

theorem raiseStream_strm : vget (s.raiseStream k c).attention.strm k = (vget s.attention.strm k).add c :=
  vget_vset_same _ _ _

theorem recorded_isPending : (s.recorded k st base live c).attention.isPending .strm = true := by
  rw [recorded_frame]
  exact raiseStream_isPending s k c

theorem recorded_strm : vget (s.recorded k st base live c).attention.strm k = (vget s.attention.strm k).add c := by
  rw [recorded_frame]
  exact raiseStream_strm s k c

theorem settle_strm : (settle s).attention.strm = s.attention.strm := (settle_keeps s).2.2.2.2.2.2

theorem settle_strm_isPending : (settle s).attention.isPending .strm = s.attention.isPending .strm :=
  settle_isPending (by decide) (by decide) s

end

/-! ### The figures of an estimate -/

section
variable (k : Fin 48) (st : Stream) (n : Nat)

theorem estimateBase_energy (kd : Kind) : (s.estimateBase st n).energy.get kd =
    if s.estimates st.entry ∧ st.entry.category = .energy ∧ kd = st.entry.kind then
      min cap48 ((s.liveBase st.entry.target).energy.get kd + st.estimateWhole n / 65536)
    else (s.liveBase st.entry.target).energy.get kd := by
  unfold State.estimateBase
  by_cases books : s.estimates st.entry
  · rw [if_pos books, booked_energy ((estimated_iff _).2 books.2)]
    exact if_congr ⟨fun h => ⟨books, h⟩, And.right⟩ rfl rfl
  · rw [if_neg books, if_neg fun h => books h.1]

theorem estimateBase_credit : (s.estimateBase st n).credit =
    if s.estimates st.entry ∧ st.entry.category = .credit then
      min cap48 ((s.liveBase st.entry.target).credit + st.estimateWhole n / 65536)
    else (s.liveBase st.entry.target).credit := by
  unfold State.estimateBase
  by_cases books : s.estimates st.entry
  · rw [if_pos books, booked_credit ((estimated_iff _).2 books.2)]
    exact if_congr ⟨fun h => ⟨books, h⟩, And.right⟩ rfl rfl
  · rw [if_neg books, if_neg fun h => books h.1]

theorem estimateBase_estimated : (s.estimateBase st n).estimated =
    if s.estimates st.entry then min cap48 ((s.liveBase st.entry.target).estimated + st.estimateWhole n / 65536)
    else (s.liveBase st.entry.target).estimated := by
  unfold State.estimateBase
  split
  · exact (booked_estimated _ _ _).trans (if_pos rfl)
  · rfl

theorem estimateBase_rest : (s.estimateBase st n).correction = (s.liveBase st.entry.target).correction ∧
    (s.estimateBase st n).held = (s.liveBase st.entry.target).held := by
  unfold State.estimateBase
  split
  · exact booked_rest _ _ _
  · exact ⟨rfl, rfl⟩

/-- R45: holding a stream moves the held streams alone. -/
theorem heldBase_eq (b : LiveBase) : s.heldBase k b = { b with held := if s.run = .run then vset b.held k true else b.held } := by
  unfold State.heldBase
  split <;> rfl

end

/-! ### Timers -/

section
variable {k : Fin 48} {st : Stream} {isDue : StreamLive → Bool} {act : Stream → State → State}

theorem streamTimer_of_pass (pass : s.run = .pass) : s.streamTimer k isDue act = s := if_pos pass

theorem streamTimer_of_due (run : s.run ≠ .pass) (sound : s.sound) (stream : s.stream k = some st) (due : isDue st.live = true) :
    s.streamTimer k isDue act = act st s := by
  unfold State.streamTimer
  simp only [if_neg run, stream, due, if_true, touch_of_sound sound]

theorem streamTimer_of_early (run : s.run ≠ .pass) (stream : s.stream k = some st) (early : isDue st.live = false) :
    s.streamTimer k isDue act = s := by
  unfold State.streamTimer
  simp [run, stream, early]

theorem due_some {a now : Nat} : due (some a) now = decide (a ≤ now) := rfl

theorem enterLost_of_sound (sound : s.sound) (stream : s.stream k = some st) : s.enterLost k =
    s.recorded k st (s.heldBase k (s.liveBase st.entry.target))
      { st.live with state := .lost, intervalAt := none, holdAt := none } .lost := by
  unfold State.enterLost
  rw [stream]
  refine (addHeld_of_sound (s := (s.setStreamLive k st _).raiseStream k .lost) sound k st.entry).trans ?_
  unfold State.recorded State.written
  cases st.entry.target <;> rfl

theorem enterStale_eq_recorded (sound : s.sound) (stream : s.stream k = some st) :
    s.enterStale k = s.recorded k st (s.staleBase k st) (s.staleLive st) .stale := enterStale_of_sound sound stream

theorem recorded_sound (sound : s.sound) {base : LiveBase} {live : StreamLive} {c : StreamCause} :
    (s.recorded k st base live c).sound := by
  rw [recorded_frame]
  exact sound

end

end

end Sys2Proof.Machine

open Sys2Proof Sys2Proof.Machine

/-- Settles O32: each timer acts on its stream where it is due. -/
theorem selectAndHoldTimersExpire : Obligations.SelectAndHoldTimersExpire := by
  refine ⟨fun k s st a run sound stream select timer => ⟨fun reached => next_settle ?_, fun early => next_settle ?_⟩,
    fun k s st a run sound stream stale timer reached => ?_, fun k s pass => ?_⟩
  · have three : decide (min 3 (st.live.attempts + 1) = 3) = decide (2 ≤ st.live.attempts) := by
      rw [decide_eq_decide]
      omega
    refine (streamTimer_of_due run sound stream (by simp [select, timer, due_some, State.now, reached])).trans ?_
    dsimp only
    rw [three]
    rfl
  · exact streamTimer_of_early run stream (by simp [timer, due_some, State.now, early])
  · have lost : s.holdExpiry k = s.enterLost k :=
      (streamTimer_of_due run sound stream (by simp [stale, timer, due_some, State.now, reached])).trans
        (if_neg (by rw [stale]; nofun))
    refine ⟨_, next_settle (lost.trans (enterLost_of_sound sound stream)), ?_, ?_, ?_, fun a => ?_, fun j other => ?_⟩
    · rw [settle_stream, recorded_stream]
    · rw [settle_strm_isPending, recorded_isPending]
    · rw [settle_strm, recorded_strm]
      rfl
    · rw [settle_liveBase, recorded_liveBase, heldBase_eq]
      by_cases same : a = st.entry.target
      · rw [if_pos same, same]
        by_cases running : s.run = .run
        · rw [if_pos running, if_pos ⟨rfl, running⟩]
        · rw [if_neg running, if_neg fun h => running h.2]
      · rw [if_neg same, if_neg fun h => same h.1]
    · rw [settle_stream, recorded_stream_other _ _ _ _ _ _ other]
  · exact ⟨next_settle (streamTimer_of_pass pass), next_settle (streamTimer_of_pass pass),
      next_settle (streamTimer_of_pass pass), next_settle (streamTimer_of_pass pass)⟩
end

section
/-! PROOFS. What a booking does, and what a counting sample measures (R50 to R61, R66 to R70). -/

namespace Sys2Proof.Machine

set_option Elab.async false

section
variable {s : State} {e : StreamEntry}

/-! ### Bookings (R58, R60) -/

/-- A booking by mass moves of the shared parts the SAT flag alone. -/
theorem book_liveBase_of_mass (mass : e.category.estimated = false) (s : State) (w : Nat) (est : Bool) (a : Account) :
    (s.book e w est).liveBase a = { s.liveBase a with flags := ((s.book e w est).liveBase a).flags } := by
  have furnace (f : Fin 4) (x : FurnaceLive) (flags : LiveFlags) (base : x.base = { (s.fLive f).base with flags := flags }) :
      (s.setFLive f x).liveBase a = { s.liveBase a with flags := ((s.setFLive f x).liveBase a).flags } := by
    cases a with
    | line l => rfl
    | furnace g =>
      by_cases same : f = g
      · have written : (s.setFLive f x).fLive g = x := by
          rw [← same]
          exact vget_vset_same _ _ _
        show ((s.setFLive f x).fLive g).base = { (s.fLive g).base with flags := ((s.setFLive f x).fLive g).base.flags }
        rw [written, base, same]
      · have kept : (s.setFLive f x).fLive g = s.fLive g := vget_vset_other _ same _
        show ((s.setFLive f x).fLive g).base = { (s.fLive g).base with flags := ((s.setFLive f x).fLive g).base.flags }
        rw [kept]
  unfold State.book
  cases category : e.category with
  | energy => rw [category] at mass; nomatch mass
  | credit => rw [category] at mass; nomatch mass
  | charge =>
    cases e.target with
    | furnace f => exact furnace f _ _ rfl
    | line l => rfl
  | cullet =>
    cases e.target with
    | furnace f => exact furnace f _ _ rfl
    | line l => rfl
  | gobw => rfl

theorem book_liveBase_other {a : Account} (other : a ≠ e.target) (s : State) (w : Nat) (est : Bool) :
    (s.book e w est).liveBase a = s.liveBase a := by
  have furnace (f : Fin 4) (target : e.target = .furnace f) (x : FurnaceLive) :
      (s.setFLive f x).liveBase a = s.liveBase a := by
    cases a with
    | line l => rfl
    | furnace g =>
      exact congrArg FurnaceLive.base (vget_vset_other _ (fun h => other (by rw [target, h])) _)
  unfold State.book
  cases e.category with
  | energy => exact liveBase_setLiveBase_other other s _
  | credit => exact liveBase_setLiveBase_other other s _
  | charge =>
    cases target : e.target with
    | furnace f => exact furnace f target _
    | line l => rfl
  | cullet =>
    cases target : e.target with
    | furnace f => exact furnace f target _
    | line l => rfl
  | gobw => rfl

variable (s) (w : Nat) (est : Bool)

theorem book_energy (kd : Kind) : ((s.book e w est).liveBase e.target).energy.get kd =
    if e.category = .energy ∧ kd = e.kind then min cap48 ((s.liveBase e.target).energy.get kd + w)
    else (s.liveBase e.target).energy.get kd := by
  cases energetic : e.category.estimated with
  | true => rw [book_of_estimated energetic, State.liveBase_setLiveBase_same, booked_energy energetic]
  | false =>
    rw [book_liveBase_of_mass energetic, if_neg]
    intro h
    rw [h.1] at energetic
    nomatch energetic

theorem book_credit : ((s.book e w est).liveBase e.target).credit =
    if e.category = .credit then min cap48 ((s.liveBase e.target).credit + w) else (s.liveBase e.target).credit := by
  cases energetic : e.category.estimated with
  | true => rw [book_of_estimated energetic, State.liveBase_setLiveBase_same, booked_credit energetic]
  | false =>
    rw [book_liveBase_of_mass energetic, if_neg]
    intro h
    rw [h] at energetic
    nomatch energetic

theorem book_estimated : ((s.book e w est).liveBase e.target).estimated =
    if e.category.estimated = true ∧ est = true then min cap48 ((s.liveBase e.target).estimated + w)
    else (s.liveBase e.target).estimated := by
  cases energetic : e.category.estimated with
  | true =>
    rw [book_of_estimated energetic, State.liveBase_setLiveBase_same, booked_estimated]
    exact if_congr ⟨fun h => ⟨rfl, h⟩, And.right⟩ rfl rfl
  | false =>
    rw [book_liveBase_of_mass energetic, if_neg]
    exact fun h => nomatch h.1

theorem book_rest : ((s.book e w est).liveBase e.target).correction = (s.liveBase e.target).correction ∧
    ((s.book e w est).liveBase e.target).held = (s.liveBase e.target).held := by
  cases energetic : e.category.estimated with
  | true =>
    rw [book_of_estimated energetic, State.liveBase_setLiveBase_same]
    exact booked_rest _ _ _
  | false =>
    rw [book_liveBase_of_mass energetic]
    exact ⟨rfl, rfl⟩

/-- R58, R60: the masses of the furnaces after a booking. -/
theorem book_masses (f : Fin 4) : ((s.book e w est).fLive f).charge =
      (if e.category = .charge ∧ e.target = .furnace f then min cap48 ((s.fLive f).charge + w) else (s.fLive f).charge) ∧
    ((s.book e w est).fLive f).cullet =
      if e.category = .cullet ∧ e.target = .furnace f then min cap48 ((s.fLive f).cullet + w) else (s.fLive f).cullet := by
  have written (g : Fin 4) (x : FurnaceLive) : (s.setFLive g x).fLive f = if g = f then x else s.fLive f := vget_vset _ _ _ _
  have other (a : Account) (b : LiveBase) : ((s.setLiveBase a b).fLive f).charge = (s.fLive f).charge ∧
      ((s.setLiveBase a b).fLive f).cullet = (s.fLive f).cullet := by
    rw [fLive_setLiveBase]
    exact ⟨rfl, rfl⟩
  unfold State.book
  cases e.category with
  | energy => simpa using other _ _
  | credit => simpa using other _ _
  | charge =>
    cases e.target with
    | line l => simp
    | furnace g =>
      dsimp only
      rw [written]
      by_cases same : g = f
      · simp [same, satAdd_eq]
      · simp [same]
  | cullet =>
    cases e.target with
    | line l => simp
    | furnace g =>
      dsimp only
      rw [written]
      by_cases same : g = f
      · simp [same, satAdd_eq]
      · simp [same]
  | gobw => simp

end

/-! ### Measurements (R52, R53, R55, R190) -/

theorem wrapDelta_of_add {m base d : Nat} (small : d < m) : wrapDelta m base ((base + d) % m) = d := by
  unfold wrapDelta
  have value : (((base + d) % m : Nat) : Int) = ((base : Int) + d) % m := by push_cast; rfl
  have delta : (((base : Int) + d) % m - base) % m = d := by
    rw [Int.sub_emod, Int.emod_emod_of_dvd _ (dvd_refl _), ← Int.sub_emod, add_sub_cancel_left]
    exact Int.emod_eq_of_lt (Int.natCast_nonneg _) (by exact_mod_cast small)
  rw [value]
  exact (congrArg Int.toNat delta).trans (Int.toNat_natCast d)

theorem gapCount_eq {p q : Nat} (p_le : p ≤ 255) (q_le : q ≤ 255) : gapCount p q = (q + 255 - p) % 256 := by
  unfold gapCount
  omega

/-- R50, R190: what a sample that measures `n`, `d`, `g` and `q` is to the booking engine. -/
theorem measures_sample {v : StreamLive} {base good code : Nat} {value : List Byte} {m : Format} {n d g : Nat}
    {q : Option Nat} (h : e.Measures v base code value m n d g q) (stands : v.base = some base) (last : v.lastGood = some good)
    (now : Nat) : (sampleOf code value).format = some m ∧ ¬(m = .step ∧ v.lastSeq = some (sampleOf code value).seq) ∧
      (if m = .step then some (sampleOf code value).seq else none) = q ∧
      measure e v m (sampleOf code value) now =
        { value := n, delta := d, gap := g, gapAmount := g * base, elapsed := now - good } := by
  rcases h with ⟨rfl, codes, length, rfl, small, sum, rfl, rfl⟩ | ⟨rfl, codes, length, rfl, small, sum, rfl, rfl⟩ |
    ⟨rfl, rfl, hi, lo, sq, p, rfl, rfl, rfl, seq, p_le, fresh, rfl, rfl⟩
  · have read : (sampleOf code value).format = some .total32 ∧ (sampleOf code value).value = beNat value := by
      rcases codes with rfl | rfl <;> simp [sampleOf, length]
    obtain ⟨format, bytes⟩ := read
    refine ⟨format, fun h => (nomatch h.1), rfl, ?_⟩
    simp only [measure, bytes, StreamEntry.reduce, StreamEntry.modulusFor, stands, last, Option.getD_some, ← sum,
      wrapDelta_of_add small, Nat.zero_mul]
  · have read : (sampleOf code value).format = some .total16 ∧ (sampleOf code value).value = beNat value := by
      rcases codes with rfl | rfl <;> simp [sampleOf, length]
    obtain ⟨format, bytes⟩ := read
    refine ⟨format, fun h => (nomatch h.1), rfl, ?_⟩
    simp only [measure, bytes, StreamEntry.reduce, StreamEntry.modulusFor, stands, last, Option.getD_some, ← sum,
      wrapDelta_of_add small, Nat.zero_mul]
  · have read : sampleOf 2 [hi, lo, sq] = ⟨some .step, false, hi.toNat * 256 + lo.toNat, sq.toNat⟩ := by
      simp [sampleOf, beNat]
    rw [read]
    refine ⟨rfl, fun h => fresh (Option.some.inj (seq.symm.trans h.2)), rfl, ?_⟩
    simp only [measure, seq, stands, last, Option.getD_some, gapCount_eq p_le (Nat.le_of_lt_succ sq.isLt)]

end Sys2Proof.Machine
end

section
/-! PROOFS. Counting samples: jumps, deltas, gaps and returns from silence (R50 to R61, R66 to R70). -/

namespace Sys2Proof.Machine

set_option Elab.async false

section
variable {s : State} {k : Fin 48} {st : Stream}

/-! ### The sample's way to the booking engine (R36, R43) -/

theorem streamSample_of_bound (stream : s.stream k = some st)
    (bound : st.live.state = .live ∨ st.live.state = .stale ∨ st.live.state = .lost) (smp : Sample) :
    s.streamSample k smp = s.sampleWhileBound k st smp := by
  unfold State.streamSample
  rw [stream]
  rcases bound with h | h | h <;> simp only [h]

theorem sampleWhileBound_in_use {base : Nat} (stands : st.live.base = some base) {f : Format} {smp : Sample}
    (format : smp.format = some f) (use : st.live.format = some f) : s.sampleWhileBound k st smp = s.handOver k st f smp := by
  unfold State.sampleWhileBound
  simp only [stands, format, use, if_true]

theorem counting_iff (c : Category) : c.counting = true ↔ c ≠ .gobw := by
  cases c <;> decide

theorem handOver_of_counting (counts : st.entry.category ≠ .gobw) (f : Format) (smp : Sample) :
    s.handOver k st f smp = s.countingSample k st f smp := if_pos ((counting_iff _).2 counts)

/-! ### The sample judged (R50, R56, R57) -/

/-- R50: the stream after a good counting sample, its pending estimate, remainder and held rate apart. -/
def Stream.afterSample (st : Stream) (now n g : Nat) (q : Option Nat) : StreamLive := { st.live with
  state := .live, base := some n, lastSeq := q, lastGood := some now, deferral := false
  selectAt := none, intervalAt := none, staleAt := some (now + 3 * st.entry.interval * 1000)
  holdAt := some (now + st.entry.hold * 60000)
  counts := { st.live.counts with
    gaps := if g = 0 then st.live.counts.gaps else min 4294967295 (st.live.counts.gaps + 1) } }

theorem afterSample_eq (st : Stream) {f : Format} {n g seq now : Nat} {q : Option Nat}
    (sequence : (if f = .step then some seq else none) = q) :
    ((if 0 < g then ({ st.live with counts := { st.live.counts with gaps := bump st.live.counts.gaps } } : StreamLive)
      else st.live).rebase f n seq).good st.entry now = st.afterSample now n g q := by
  unfold Stream.afterSample StreamLive.good StreamLive.rebase
  rw [sequence]
  cases g with
  | zero => rfl
  | succ g =>
    rw [if_pos (Nat.succ_pos g), if_neg (Nat.succ_ne_zero g), bump_eq]

/-- R57: a sample past the limit. -/
theorem countingSample_of_jump {f : Format} {smp : Sample} {n d g ms base : Nat} {q : Option Nat}
    (fresh : ¬(f = .step ∧ st.live.lastSeq = some smp.seq)) (sequence : (if f = .step then some smp.seq else none) = q)
    (measured : measure st.entry st.live f smp s.now = { value := n, delta := d, gap := g, gapAmount := g * base, elapsed := ms })
    (over_limit : s.deltaLimit st.entry ms < d + g * base) :
    s.countingSample k st f smp = (s.setStreamLive k st { st.afterSample s.now n g q with
      pending := 0
      counts := { (st.afterSample s.now n g q).counts with
        jumps := min 4294967295 (st.live.counts.jumps + 1) } }).raiseStream k .jump := by
  have after := afterSample_eq st (n := n) (g := g) (now := s.now) sequence
  unfold State.countingSample
  dsimp only
  rw [if_neg fresh, measured]
  dsimp only
  rw [if_pos over_limit]
  generalize written : (if 0 < g then ({ st.live with counts := { st.live.counts with gaps := bump st.live.counts.gaps } } : StreamLive)
      else st.live) = v at after ⊢
  have jumps : v.counts.jumps = st.live.counts.jumps := by
    rw [← written]
    split <;> rfl
  have counts : v.counts = (st.afterSample s.now n g q).counts := (congrArg StreamLive.counts after :)
  rw [after, jumps, bump_eq, counts]

/-- R50, R61, R66: a sample within the limit. -/
theorem countingSample_of_within {f : Format} {smp : Sample} {n d g ms base : Nat} {q : Option Nat}
    (fresh : ¬(f = .step ∧ st.live.lastSeq = some smp.seq)) (sequence : (if f = .step then some smp.seq else none) = q)
    (measured : measure st.entry st.live f smp s.now = { value := n, delta := d, gap := g, gapAmount := g * base, elapsed := ms })
    (within : d + g * base ≤ s.deltaLimit st.entry ms) :
    s.countingSample k st f smp =
      (s.bookSample st.entry st.live { value := n, delta := d, gap := g, gapAmount := g * base, elapsed := ms }).1.setStreamLive
        k st { st.afterSample s.now n g q with
          pending := if st.live.state = .live then st.live.pending else 0
          remainder := (s.bookSample st.entry st.live
            { value := n, delta := d, gap := g, gapAmount := g * base, elapsed := ms }).2
          heldRate := if g = 0 then min (d * 65536 * 1000 / max 1 ms) (st.entry.maxRate * 65536) else st.live.heldRate } := by
  have after := afterSample_eq st (n := n) (g := g) (now := s.now) sequence
  unfold State.countingSample
  dsimp only
  rw [if_neg fresh, measured]
  dsimp only
  rw [if_neg (Nat.not_lt.2 within), after]
  have rate : (if 0 < g then st.live.heldRate else heldRateOf d ms st.entry.maxRate) =
      if g = 0 then min (d * 65536 * 1000 / max 1 ms) (st.entry.maxRate * 65536) else st.live.heldRate := by
    cases g <;> simp [heldRateOf]
  rw [rate]

/-! ### What is booked (R51, R58, R60, R66 to R70) -/

section
variable {e : StreamEntry} {v : StreamLive} {n d g ms base : Nat}

/-- R11, R44: outside RUN a sample books nothing. -/
theorem bookSample_of_not_run (idle : s.run ≠ .run) (m : Measured) : s.bookSample e v m = (s, v.remainder) := if_neg idle

/-- R58, R60: in LIVE the gap is booked first, as an estimate, then the delta. -/
theorem bookSample_of_gap (sound : s.sound) (run : s.run = .run) (live : v.state = .live)
    (energetic : e.category.estimated = true) (missed : g ≠ 0) :
    s.bookSample e v { value := n, delta := d, gap := g, gapAmount := g * base, elapsed := ms } =
      ((s.book e ((g * base * e.factor + v.remainder) / 65536) true).book e
        ((d * e.factor + (g * base * e.factor + v.remainder) % 65536) / 65536) false,
      (d * e.factor + (g * base * e.factor + v.remainder) % 65536) % 65536) := by
  unfold State.bookSample State.bookDelta
  dsimp only
  rw [if_pos run, if_pos live, if_pos ⟨Nat.pos_of_ne_zero missed, energetic⟩, touch_of_sound sound]
  rfl

theorem bookSample_of_delta (sound : s.sound) (run : s.run = .run) (live : v.state = .live)
    (plain : ¬(e.category.estimated = true ∧ g ≠ 0)) :
    s.bookSample e v { value := n, delta := d, gap := g, gapAmount := g * base, elapsed := ms } =
      (s.book e ((d * e.factor + v.remainder) / 65536) false, (d * e.factor + v.remainder) % 65536) := by
  unfold State.bookSample State.bookDelta
  dsimp only
  rw [if_pos run, if_pos live, if_neg fun h => plain ⟨h.2, Nat.pos_iff_ne_zero.1 h.1⟩, touch_of_sound sound]
  rfl

/-- R66, R67: a return of an energy stream books the correction. -/
theorem bookSample_of_return (sound : s.sound) (run : s.run = .run) (silent : v.state ≠ .live)
    (energetic : e.category.estimated = true) :
    s.bookSample e v { value := n, delta := d, gap := g, gapAmount := g * base, elapsed := ms } =
      (s.bookCorrection e (roundCorrection ((((d + g * base) * 65536 : Nat) - (v.pending : Int)) * (e.factor : Int))),
        v.remainder) := by
  unfold State.bookSample State.bookReturn
  dsimp only
  rw [if_pos run, if_neg silent, if_pos energetic, touch_of_sound sound]

/-- R69, R70: a return of a mass stream books the delta. -/
theorem bookSample_of_mass_return (sound : s.sound) (run : s.run = .run) (silent : v.state ≠ .live)
    (mass : e.category.estimated = false) :
    s.bookSample e v { value := n, delta := d, gap := g, gapAmount := g * base, elapsed := ms } =
      (s.book e ((d * e.factor + v.remainder) / 65536) false, (d * e.factor + v.remainder) % 65536) := by
  unfold State.bookSample State.bookReturn
  dsimp only
  rw [if_pos run, if_neg silent, if_neg (by rw [mass]; nofun), touch_of_sound sound]
  rfl

/-- R58, R67: the bookings of a sample change live sets alone. -/
theorem bookSample_frame (sound : s.sound) (m : Measured) : (s.bookSample e v m).1 = { s with
    furnaceLive := (s.bookSample e v m).1.furnaceLive, lineLive := (s.bookSample e v m).1.lineLive } := by
  unfold State.bookSample State.bookDelta State.bookReturn
  dsimp only
  rw [touch_of_sound sound]
  split
  · split
    · split
      · rw [State.book_frame, State.book_frame]
      · exact State.book_frame _ _ _ _
    · split
      · exact State.bookCorrection_frame _ _ _
      · exact State.book_frame _ _ _ _
  · rfl

theorem bookCorrection_liveBase_other {a : Account} (other : a ≠ e.target) (s : State) (c : Int) :
    (s.bookCorrection e c).liveBase a = s.liveBase a := by
  unfold State.bookCorrection
  cases e.category with
  | energy => exact liveBase_setLiveBase_other other s _
  | credit => exact liveBase_setLiveBase_other other s _
  | charge => rfl
  | cullet => rfl
  | gobw => rfl

theorem bookSample_liveBase_other (sound : s.sound) {a : Account} (other : a ≠ e.target) (m : Measured) :
    (s.bookSample e v m).1.liveBase a = s.liveBase a := by
  unfold State.bookSample State.bookDelta State.bookReturn
  dsimp only
  rw [touch_of_sound sound]
  split
  · split
    · split
      · exact (book_liveBase_other other _ _ _).trans (book_liveBase_other other s _ _)
      · exact book_liveBase_other other s _ _
    · split
      · exact bookCorrection_liveBase_other other s _
      · exact book_liveBase_other other s _ _
  · rfl

theorem min_add_min (c x a b : Nat) : min c (min c (x + a) + b) = min c (x + a + b) := by omega

/-- R51, R58, R60: what a counting sample of a LIVE stream books. -/
theorem bookSample_live (sound : s.sound) (live : v.state = .live) :
    let r := s.bookSample e v { value := n, delta := d, gap := g, gapAmount := g * base, elapsed := ms }
    let books := s.run = .run
    let filled := (e.category = .energy ∨ e.category = .credit) ∧ g ≠ 0
    let gap := g * base * e.factor + v.remainder
    let gapKj := if filled then gap / 65536 else 0
    let whole := d * e.factor + (if filled then gap % 65536 else v.remainder)
    let old := s.liveBase e.target
    r.2 = (if books then whole % 65536 else v.remainder) ∧
      (∀ kd, (r.1.liveBase e.target).energy.get kd = if books ∧ e.category = .energy ∧ kd = e.kind then
        min cap48 (old.energy.get kd + gapKj + whole / 65536) else old.energy.get kd) ∧
      (r.1.liveBase e.target).credit = (if books ∧ e.category = .credit then
        min cap48 (old.credit + gapKj + whole / 65536) else old.credit) ∧
      (r.1.liveBase e.target).estimated = (if books ∧ filled then
        min cap48 (old.estimated + gapKj) else old.estimated) ∧
      (r.1.liveBase e.target).correction = old.correction ∧ (r.1.liveBase e.target).held = old.held ∧
      (∀ f, (r.1.fLive f).charge = if books ∧ e.category = .charge ∧ e.target = .furnace f then
        min cap48 ((s.fLive f).charge + whole / 65536) else (s.fLive f).charge) ∧
      (∀ f, (r.1.fLive f).cullet = if books ∧ e.category = .cullet ∧ e.target = .furnace f then
        min cap48 ((s.fLive f).cullet + whole / 65536) else (s.fLive f).cullet) := by
  intro r books filled gap gapKj whole old
  by_cases run : s.run = .run
  · by_cases fills : filled
    · have energetic := (estimated_iff _).2 fills.1
      have massless (c : Category) (mass : c.estimated = false) : e.category ≠ c := fun h => by
        rw [h, mass] at energetic
        nomatch energetic
      have booked : r = ((s.book e (gap / 65536) true).book e (whole / 65536) false, whole % 65536) := by
        have := bookSample_of_gap (n := n) (d := d) (ms := ms) (base := base) sound run live energetic fills.2
        rw [show whole = d * e.factor + gap % 65536 from congrArg _ (if_pos fills)]
        exact this
      have kj : gapKj = gap / 65536 := if_pos fills
      rw [booked, kj]
      refine ⟨(if_pos run).symm, fun kd => ?_, ?_, ?_, ?_, ?_, fun f => ?_, fun f => ?_⟩
      · rw [book_energy, book_energy]
        by_cases same : e.category = .energy ∧ kd = e.kind
        · rw [if_pos same, if_pos same, if_pos ⟨run, same⟩, min_add_min]
        · rw [if_neg same, if_neg same, if_neg fun h => same h.2]
      · rw [book_credit, book_credit]
        by_cases same : e.category = .credit
        · rw [if_pos same, if_pos same, if_pos ⟨run, same⟩, min_add_min]
        · rw [if_neg same, if_neg same, if_neg fun h => same h.2]
      · rw [book_estimated, book_estimated, if_neg (fun h => nomatch h.2), if_pos ⟨energetic, rfl⟩, if_pos ⟨run, fills⟩]
      · exact (book_rest _ _ _).1.trans (book_rest _ _ _).1
      · exact (book_rest _ _ _).2.trans (book_rest _ _ _).2
      · rw [(book_masses _ _ _ f).1, (book_masses _ _ _ f).1, if_neg fun h => massless .charge rfl h.1,
          if_neg fun h => massless .charge rfl h.1, if_neg fun h => massless .charge rfl h.2.1]
      · rw [(book_masses _ _ _ f).2, (book_masses _ _ _ f).2, if_neg fun h => massless .cullet rfl h.1,
          if_neg fun h => massless .cullet rfl h.1, if_neg fun h => massless .cullet rfl h.2.1]
    · have booked : r = (s.book e (whole / 65536) false, whole % 65536) := by
        have := bookSample_of_delta (n := n) (d := d) (ms := ms) (base := base) sound run live
          fun h => fills ⟨(estimated_iff _).1 h.1, h.2⟩
        rw [show whole = d * e.factor + v.remainder from congrArg _ (if_neg fills)]
        exact this
      have kj : gapKj = 0 := if_neg fills
      rw [booked, kj]
      refine ⟨(if_pos run).symm, fun kd => ?_, ?_, ?_, (book_rest _ _ _).1, (book_rest _ _ _).2, fun f => ?_, fun f => ?_⟩
      · rw [book_energy]
        exact if_congr ⟨fun h => ⟨run, h⟩, And.right⟩ rfl rfl
      · rw [book_credit]
        exact if_congr ⟨fun h => ⟨run, h⟩, And.right⟩ rfl rfl
      · rw [book_estimated, if_neg (fun h => nomatch h.2), if_neg fun h => fills h.2]
      · rw [(book_masses _ _ _ f).1]
        exact if_congr ⟨fun h => ⟨run, h⟩, And.right⟩ rfl rfl
      · rw [(book_masses _ _ _ f).2]
        exact if_congr ⟨fun h => ⟨run, h⟩, And.right⟩ rfl rfl
  · have none : r = (s, v.remainder) := bookSample_of_not_run run _
    rw [none]
    exact ⟨(if_neg run).symm, fun kd => (if_neg fun h => run h.1).symm, (if_neg fun h => run h.1).symm,
      (if_neg fun h => run h.1).symm, rfl, rfl, fun f => (if_neg fun h => run h.1).symm, fun f => (if_neg fun h => run h.1).symm⟩

end

/-- R161: the ports and the free values of a state replaced. -/
def State.withPorts (s : State) (fresh : Nat) (field plant : Port) : State :=
  { s with fresh := fresh, field := field, plant := plant }

theorem State.PortsOnly.exists_withPorts {t : State} (h : s.PortsOnly t) : ∃ n f p, t = s.withPorts n f p :=
  ⟨_, _, _, h.frame⟩

/-- R36, R43: the row of a sample that its stream hands over to the booking engine. -/
theorem exec_sample_in_use {dest src b : Byte} {value : List Byte} {begun : Begun} (up : s.field.link = .up)
    (short : value.length ≤ 247) (run : s.run ≠ .pass) (sound : s.sound)
    (found : s.findStream src (b.toNat % 16) = some k) (stream : s.stream k = some st)
    (bound : st.live.state = .live ∨ st.live.state = .stale ∨ st.live.state = .lost) {base : Nat}
    (stands : st.live.base = some base) {f : Format} (format : (sampleOf (b.toNat / 16) value).format = some f)
    (use : st.live.format = some f) : ∃ n fld plt, exec (.smplReceived dest src ⟨b :: value, begun⟩) s =
      .next (settle ((s.withPorts n fld plt).handOver k st f (sampleOf (b.toNat / 16) value))) := by
  have enabled : st.live.state ≠ .off := by rcases bound with h | h | h <;> rw [h] <;> nofun
  obtain ⟨t, ports, row⟩ := exec_smplReceived (dest := dest) (begun := begun) up short run sound found stream enabled
  obtain ⟨n, fld, plt, rfl⟩ := ports.exists_withPorts
  rw [streamSample_of_bound (s := s.withPorts n fld plt) stream bound, sampleWhileBound_in_use stands format use] at row
  exact ⟨n, fld, plt, row⟩

theorem measures_length {e : StreamEntry} {v : StreamLive} {base code : Nat} {value : List Byte} {m : Format} {n d g : Nat}
    {q : Option Nat} (h : e.Measures v base code value m n d g q) : value.length ≤ 247 := by
  rcases h with ⟨-, -, length, -⟩ | ⟨-, -, length, -⟩ | ⟨-, -, hi, lo, sq, p, rfl, -⟩
  · omega
  · omega
  · exact (by decide : 3 ≤ 247)

/-- R54: a STEP sample that repeats the last sequence. -/
theorem countingSample_of_repeat {smp : Sample} (again : st.live.lastSeq = some smp.seq) :
    s.countingSample k st .step smp = s.setStreamLive k st { st.live with
      counts := { st.live.counts with repeats := min 4294967295 (st.live.counts.repeats + 1) } } := by
  unfold State.countingSample
  dsimp only
  rw [if_pos ⟨rfl, again⟩, bump_eq]

end

end Sys2Proof.Machine

open Sys2Proof Sys2Proof.Machine

/-- Settles O31: the sample measured, then judged by the limit; a repeated one is counted. -/
theorem sampleBooksItsDeltaOrJumps : Obligations.SampleBooksItsDeltaOrJumps := by
  refine ⟨?_, ?_⟩
  · intro dest src b value begun s k st m base good n d g q up run sound found stream bound use stands last counts
      measures x v ms limit books energetic filled gap gapKj whole old after
    obtain ⟨format, fresh, sequence, sampled⟩ := measures_sample measures stands last s.now
    have measured : measure st.entry st.live m (sampleOf (b.toNat / 16) value) s.now =
      { value := n, delta := d, gap := g, gapAmount := g * base, elapsed := ms } := sampled
    obtain ⟨p, fld, plt, row⟩ := exec_sample_in_use (dest := dest) (begun := begun) up (measures_length measures) run sound
      found stream bound stands format use
    rw [handOver_of_counting counts] at row
    have uSound : (s.withPorts p fld plt).sound := sound
    have jumps := countingSample_of_jump (s := s.withPorts p fld plt) (k := k) fresh sequence measured
    have counted := countingSample_of_within (s := s.withPorts p fld plt) (k := k) fresh sequence measured
    have frame := bookSample_frame (e := st.entry) (v := st.live) uSound
      { value := n, delta := d, gap := g, gapAmount := g * base, elapsed := ms }
    have figures := bookSample_live (e := st.entry) (v := st.live) (n := n) (d := d) (g := g) (ms := ms) (base := base) uSound
    have accounts (a : Account) (other : a ≠ st.entry.target) := bookSample_liveBase_other (v := st.live) uSound other
      { value := n, delta := d, gap := g, gapAmount := g * base, elapsed := ms }
    generalize (s.withPorts p fld plt).bookSample st.entry st.live
      { value := n, delta := d, gap := g, gapAmount := g * base, elapsed := ms } = r at counted frame figures accounts
    refine ⟨_, row, fun live within => ?_, fun over_limit => ?_, fun a other => ?_, fun j other => ?_, ?_, ?_⟩
    · obtain ⟨remainder, energy, credit, estimated, correction, held, charge, cullet⟩ := figures live
      rw [counted within, settle_stream, State.stream_setStreamLive_same, if_pos live, remainder]
      simp only [settle_liveBase, settle_fLive]
      exact ⟨rfl, energy, credit, estimated, correction, held, charge, cullet⟩
    · rw [jumps over_limit, settle_stream, settle_strm_isPending, raiseStream_isPending, settle_strm, raiseStream_strm,
        settle_furnaceLive, settle_lineLive]
      exact ⟨vget_vset_same _ _ _, rfl, rfl, rfl, rfl⟩
    · rw [settle_liveBase]
      by_cases within : d + g * base ≤ (s.withPorts p fld plt).deltaLimit st.entry ms
      · rw [counted within]
        exact accounts a other
      · rw [jumps (Nat.not_le.1 within)]
        cases a <;> rfl
    · rw [settle_stream]
      by_cases within : d + g * base ≤ (s.withPorts p fld plt).deltaLimit st.entry ms
      · rw [counted within, State.stream_setStreamLive_other _ other.symm, frame]
        rfl
      · rw [jumps (Nat.not_le.1 within)]
        exact vget_vset_other _ other.symm _
    · rw [settle_records]
      by_cases within : d + g * base ≤ (s.withPorts p fld plt).deltaLimit st.entry ms
      · rw [counted within]
        exact (congrArg State.records frame :)
      · rw [jumps (Nat.not_le.1 within)]
        rfl
    · rw [settle_heard]
      by_cases within : d + g * base ≤ (s.withPorts p fld plt).deltaLimit st.entry ms
      · rw [counted within]
        exact (congrArg State.heard frame :)
      · rw [jumps (Nat.not_le.1 within)]
        rfl
  · intro dest src b hi lo sq begun s k st base up code run sound found stream bound use stands seq counts
    obtain ⟨p, fld, plt, row⟩ := exec_sample_in_use (value := [hi, lo, sq]) (dest := dest) (begun := begun) up
      (Nat.le_of_ble_eq_true rfl) run sound found stream bound stands (f := .step) (by rw [code]; rfl) use
    rw [handOver_of_counting counts, countingSample_of_repeat (by rw [code, seq]; simp [sampleOf, beNat])] at row
    refine ⟨_, row, ?_, fun j other => ?_, ?_, ?_, ?_⟩
    · rw [settle_stream, State.stream_setStreamLive_same]
    · rw [settle_stream, State.stream_setStreamLive_other _ other.symm]
      rfl
    · rw [settle_furnaceLive]
      rfl
    · rw [settle_lineLive]
      rfl
    · rw [settle_heard]
      rfl
end

section
/-! PROOFS. Silence and the return from it (R39 to R43, R62 to R70). -/

namespace Sys2Proof.Machine

set_option Elab.async false

section
variable {s : State} {k : Fin 48} {st : Stream}

/-! ### Corrections (R67) -/

theorem corrClamp_eq (x : Int) : corrClamp x = max (-140737488355328) (min 140737488355327 x) := by
  unfold corrClamp corrLow corrHigh
  split
  · omega
  · split <;> omega

theorem roundCorrection_eq (x : Int) :
    roundCorrection x = (if x < 0 then -1 else 1) * ((x.natAbs + 2147483648) / 4294967296 : Nat) := by
  unfold roundCorrection
  split <;> simp

/-- R66 to R70: what a counting sample of a STALE or LOST stream books. -/
theorem bookSample_silent {e : StreamEntry} {v : StreamLive} {n d g ms base : Nat} (sound : s.sound) (silent : v.state ≠ .live)
    (counts : e.category ≠ .gobw) :
    let r := s.bookSample e v { value := n, delta := d, gap := g, gapAmount := g * base, elapsed := ms }
    let settles := s.run = .run ∧ (e.category = .energy ∨ e.category = .credit)
    let mass := s.run = .run ∧ (e.category = .charge ∨ e.category = .cullet) ∧ ∃ f, e.target = .furnace f
    let whole := d * e.factor + v.remainder
    let c : Int := (((d + g * base) * 65536 : Nat) - (v.pending : Int)) * (e.factor : Int)
    let kj : Int := (if c < 0 then -1 else 1) * ((c.natAbs + 2147483648) / 4294967296 : Nat)
    let old := s.liveBase e.target
    let moved := if e.category = .credit then old.correction - kj else old.correction + kj
    r.2 = (if s.run = .run ∧ (e.category = .charge ∨ e.category = .cullet) then whole % 65536 else v.remainder) ∧
      (r.1.liveBase e.target).correction =
        (if settles then max (-140737488355328) (min 140737488355327 moved) else old.correction) ∧
      (r.1.liveBase e.target).energy = old.energy ∧ (r.1.liveBase e.target).credit = old.credit ∧
      (r.1.liveBase e.target).estimated = old.estimated ∧ (r.1.liveBase e.target).held = old.held ∧
      (∀ f, (r.1.fLive f).charge = if mass ∧ e.category = .charge ∧ e.target = .furnace f then
        min cap48 ((s.fLive f).charge + whole / 65536) else (s.fLive f).charge) ∧
      (∀ f, (r.1.fLive f).cullet = if mass ∧ e.category = .cullet ∧ e.target = .furnace f then
        min cap48 ((s.fLive f).cullet + whole / 65536) else (s.fLive f).cullet) := by
  intro r settles mass whole c kj old moved
  by_cases run : s.run = .run
  · by_cases energetic : e.category = .energy ∨ e.category = .credit
    · have masses : ¬(e.category = .charge ∨ e.category = .cullet) := by
        rcases energetic with h | h <;> rw [h] <;> nofun
      have booked : r = (s.setLiveBase e.target (old.addCorrection (if e.category = .credit then -kj else kj)), v.remainder) := by
        have returned := bookSample_of_return (n := n) (d := d) (g := g) (ms := ms) (base := base) sound run silent
          ((estimated_iff _).2 energetic)
        rw [roundCorrection_eq] at returned
        refine returned.trans (congrArg (·, v.remainder) ?_)
        unfold State.bookCorrection
        rcases energetic with category | category <;> rw [category] <;> rfl
      rw [booked]
      dsimp only
      rw [State.liveBase_setLiveBase_same]
      refine ⟨(if_neg fun h => masses h.2).symm, ?_, rfl, rfl, rfl, rfl, fun f => ?_, fun f => ?_⟩
      · have settling : settles := ⟨run, energetic⟩
        rw [if_pos settling]
        refine (corrClamp_eq _).trans (congrArg (fun y => max _ (min _ y)) ?_)
        show old.correction + (if e.category = .credit then -kj else kj) =
          if e.category = .credit then old.correction - kj else old.correction + kj
        split <;> omega
      · rw [fLive_setLiveBase]
        exact (if_neg fun h => masses h.1.2.1).symm
      · rw [fLive_setLiveBase]
        exact (if_neg fun h => masses h.1.2.1).symm
    · have masses : e.category = .charge ∨ e.category = .cullet := by
        cases category : e.category <;> simp_all
      have still : e.category.estimated = false := Bool.eq_false_iff.2 fun h => energetic ((estimated_iff _).1 h)
      have booked : r = (s.book e (whole / 65536) false, whole % 65536) :=
        bookSample_of_mass_return (n := n) (g := g) (ms := ms) (base := base) sound run silent still
      rw [booked]
      dsimp only
      refine ⟨(if_pos ⟨run, masses⟩).symm, ?_, ?_, ?_, ?_, ?_, fun f => ?_, fun f => ?_⟩
      · exact (book_rest _ _ _).1.trans (if_neg fun h => energetic h.2).symm
      · rw [book_liveBase_of_mass still]
      · rw [book_liveBase_of_mass still]
      · rw [book_liveBase_of_mass still]
      · exact (book_rest _ _ _).2
      · rw [(book_masses _ _ _ f).1]
        exact if_congr ⟨fun h => ⟨⟨run, masses, f, h.2⟩, h⟩, And.right⟩ rfl rfl
      · rw [(book_masses _ _ _ f).2]
        exact if_congr ⟨fun h => ⟨⟨run, masses, f, h.2⟩, h⟩, And.right⟩ rfl rfl
  · have none : r = (s, v.remainder) := bookSample_of_not_run run _
    rw [none]
    exact ⟨(if_neg fun h => run h.1).symm, (if_neg fun h => run h.1).symm, rfl, rfl, rfl, rfl,
      fun f => (if_neg fun h => run h.1.1).symm, fun f => (if_neg fun h => run h.1.1).symm⟩

/-! ### The entry to STALE (R39) -/

theorem silence_of_good {good now : Nat} (last : st.live.lastGood = some good) :
    st.silence now = st.live.heldRate * ((now - good) / 1000) := by
  unfold Stream.silence
  rw [last]
  rfl

theorem staleBase_eq (s : State) (k : Fin 48) (st : Stream) : s.staleBase k st =
    { s.estimateBase st (st.silence s.now) with
      held := if s.run = .run then vset (s.liveBase st.entry.target).held k true else (s.liveBase st.entry.target).held } := by
  unfold State.staleBase
  rw [heldBase_eq, (estimateBase_rest st _).2]

theorem estimate_eq_written (sound : s.sound) (k : Fin 48) (st : Stream) (v : StreamLive) (amount : Nat) :
    (s.setStreamLive k st v).estimate k amount =
      s.written k st (s.estimateBase { st with live := v } amount) (s.estimateLive { st with live := v } amount) := by
  have entered : (s.setStreamLive k st v).stream k = some { st with live := v } := State.stream_setStreamLive_same ..
  rw [estimate_of_sound (s := s.setStreamLive k st v) sound entered, setStreamLive_setLiveBase, setStreamLive_setStreamLive]
  rfl

theorem recorded_lineLive_of_furnace {f : Fin 4} (target : st.entry.target = .furnace f) (s : State) (k : Fin 48)
    (base : LiveBase) (live : StreamLive) (c : StreamCause) : (s.recorded k st base live c).lineLive = s.lineLive := by
  unfold State.recorded State.written
  rw [target]
  rfl

/-- The live sets stay where the shared part that is written is the one that stands. -/
theorem recorded_lives_of_same {base : LiveBase} (same : base = s.liveBase st.entry.target) (k : Fin 48) (live : StreamLive)
    (c : StreamCause) : (s.recorded k st base live c).furnaceLive = s.furnaceLive := by
  unfold State.recorded State.written
  rw [same, setLiveBase_liveBase]
  rfl

theorem blanked_of_blanking {e : StreamEntry} {f : Fin 4} (sensitive : e.sensitive = true)
    (energetic : e.category = .energy ∨ e.category = .credit) (target : e.target = .furnace f)
    (blanking : (s.furnaceInput f).blankingEnd.isSome) : s.blanked e = true := by
  have furnace : e.blankingFurnace = some f := by
    unfold StreamEntry.blankingFurnace
    rw [if_pos ⟨sensitive, (estimated_iff _).2 energetic⟩, target]
  unfold State.blanked
  rw [furnace]
  exact blanking

end

end Sys2Proof.Machine

open Sys2Proof Sys2Proof.Machine

/-- Settles O33: the timers by what the entry to STALE and an estimate write; the return by what a counting sample of a
silent stream books. -/
theorem silenceIsEstimated : Obligations.SilenceIsEstimated := by
  refine ⟨?_, ?_, ?_, ?_⟩
  · intro k s st a good run sound stream live timer reached last heedless x books e whole old
    have entered : s.staleExpiry k = s.recorded k st (s.staleBase k st) (s.staleLive st) .stale := by
      refine (streamTimer_of_due run sound stream (by simp [live, timer, due_some, State.now, reached])).trans ?_
      exact (if_neg (by rw [heedless]; nofun)).trans (enterStale_eq_recorded sound stream)
    have silence : st.silence s.now = e := silence_of_good last
    have target : (settle (s.recorded k st (s.staleBase k st) (s.staleLive st) .stale)).liveBase x.target = s.staleBase k st := by
      rw [settle_liveBase, recorded_liveBase, if_pos rfl]
    refine ⟨_, next_settle entered, ?_⟩
    rw [target, staleBase_eq, silence, settle_stream, recorded_stream, settle_strm_isPending, recorded_isPending, settle_strm,
      recorded_strm]
    refine ⟨?_, fun kd => ?_, ?_, ?_, ?_, rfl, rfl, rfl, fun f => ?_, fun l => ?_, fun a other => ?_, fun j other => ?_⟩
    · unfold State.staleLive
      rw [silence]
      rfl
    · exact estimateBase_energy st e kd
    · exact estimateBase_credit st e
    · exact estimateBase_estimated st e
    · exact (estimateBase_rest st e).1
    · rw [settle_fLive]
      exact recorded_fLive ..
    · rw [settle_lLive]
      exact recorded_lLive ..
    · rw [settle_liveBase, recorded_liveBase, if_neg other]
    · rw [settle_stream, recorded_stream_other _ _ _ _ _ _ other]
  · intro k s st a run sound stream stale timer reached x books e whole old
    obtain ⟨u, restarted, estimated⟩ : ∃ u, ({ st with live := { st.live with
        intervalAt := st.live.intervalAt.map (· + st.entry.interval * 1000) } } : Machine.Stream) = u ∧
        s.intervalExpiry k = s.written k st (s.estimateBase u e) (s.estimateLive u e) := by
      refine ⟨_, rfl, (streamTimer_of_due run sound stream (by simp [stale, timer, due_some, State.now, reached])).trans ?_⟩
      exact estimate_eq_written sound k st _ e
    have target : (settle (s.written k st (s.estimateBase u e) (s.estimateLive u e))).liveBase x.target = s.estimateBase u e := by
      rw [settle_liveBase, written_liveBase, if_pos rfl]
    refine ⟨_, next_settle estimated, ?_⟩
    rw [target, settle_stream, written_stream, ← restarted]
    refine ⟨?_, fun kd => ?_, ?_, ?_, ?_, ?_, fun f => ?_, fun l => ?_, fun a other => ?_, fun j other => ?_⟩
    · unfold State.estimateLive
      rw [timer]
      rfl
    · exact estimateBase_energy _ e kd
    · exact estimateBase_credit _ e
    · exact estimateBase_estimated _ e
    · exact (estimateBase_rest _ e).1
    · exact (estimateBase_rest _ e).2
    · rw [settle_fLive]
      exact written_fLive ..
    · rw [settle_lLive]
      exact written_lLive ..
    · rw [settle_liveBase, written_liveBase, if_neg other]
    · rw [settle_stream, written_stream_other _ _ _ _ _ other]
  · intro k s st a f run sound stream live sensitive energetic target blanking
    have heeds : s.blanked st.entry = true := blanked_of_blanking sensitive energetic target blanking
    refine ⟨fun timer reached => next_settle ?_, ?_⟩
    · refine (streamTimer_of_due run sound stream (by simp [live, timer, due_some, State.now, reached])).trans ?_
      exact if_pos heeds
    · intro good deferral timer reached last e whole books
      have silence : st.silence s.now = e := silence_of_good last
      have acts : s.holdExpiry k = (s.enterStale k).enterLost k :=
        (streamTimer_of_due run sound stream (by simp [live, deferral, timer, due_some, State.now, reached])).trans (if_pos live)
      have books_iff : s.estimates st.entry ↔ books := ⟨And.left, fun running => ⟨running, energetic⟩⟩
      rw [enterStale_eq_recorded sound stream] at acts
      have stale := recorded_stream s k st (s.staleBase k st) (s.staleLive st) .stale
      have others (j : Fin 48) := @recorded_stream_other s k st (s.staleBase k st) (s.staleLive st) .stale j
      have base := recorded_liveBase s k st (s.staleBase k st) (s.staleLive st) .stale (.furnace f)
      have strm := recorded_strm s k st (s.staleBase k st) (s.staleLive st) .stale
      have stays := recorded_lives_of_same (s := s) (st := st) (base := s.staleBase k st) (k := k) (live := s.staleLive st) (c := .stale)
      have lines : (s.recorded k st (s.staleBase k st) (s.staleLive st) .stale).lineLive = s.lineLive :=
        recorded_lineLive_of_furnace target ..
      have frame := recorded_frame s k st (s.staleBase k st) (s.staleLive st) .stale
      rw [enterLost_of_sound (recorded_sound sound) stale] at acts
      generalize s.recorded k st (s.staleBase k st) (s.staleLive st) .stale = w at acts stale others base strm stays lines frame
      have running : w.run = s.run := (congrArg State.run frame :)
      rw [if_pos target.symm] at base
      have final : (settle (w.recorded k { st with live := s.staleLive st } (w.heldBase k (w.liveBase st.entry.target))
          { s.staleLive st with state := .lost, intervalAt := none, holdAt := none } .lost)).liveBase (.furnace f) =
          w.heldBase k (s.staleBase k st) := by
        rw [settle_liveBase, recorded_liveBase, if_pos target.symm, target, base]
      refine ⟨_, next_settle acts, ?_, ?_, ?_, ?_, fun books => ?_, fun idle => ?_, ?_, fun j other => ?_⟩
      · rw [settle_stream, recorded_stream]
        unfold State.staleLive State.estimateLive
        rw [silence]
        simp only [books_iff]
        rfl
      · rw [settle_strm, recorded_strm, strm]
        rfl
      · rw [settle_strm, recorded_strm, strm]
        rfl
      · refine (congrArg LiveBase.estimated final).trans ?_
        rw [heldBase_eq, staleBase_eq, silence]
        refine (estimateBase_estimated st e).trans ?_
        rw [target]
        exact if_congr books_iff rfl rfl
      · refine (congrArg (fun b => vget b.held k) final).trans ?_
        rw [heldBase_eq, running, if_pos books]
        exact vget_vset_same _ _ _
      · have still : w.heldBase k (w.liveBase st.entry.target) = w.liveBase st.entry.target :=
          if_neg (by rw [running]; exact idle)
        rw [settle_furnaceLive]
        refine (recorded_lives_of_same (st := { st with live := s.staleLive st }) still k _ _).trans (stays ?_)
        unfold State.staleBase State.heldBase State.estimateBase
        rw [if_neg idle, if_neg fun h => idle h.1]
      · rw [settle_lineLive]
        exact (recorded_lineLive_of_furnace (st := { st with live := s.staleLive st }) target ..).trans lines
      · rw [settle_stream, recorded_stream_other _ _ _ _ _ _ other]
        exact others j other
  · intro dest src b value begun s k st m base good n d g q up run sound found stream silent use stands last counts measures
      x v ms within settles mass whole c kj old moved
    obtain ⟨format, fresh, sequence, sampled⟩ := measures_sample measures stands last s.now
    have measured : measure st.entry st.live m (sampleOf (b.toNat / 16) value) s.now =
      { value := n, delta := d, gap := g, gapAmount := g * base, elapsed := ms } := sampled
    obtain ⟨p, fld, plt, row⟩ := exec_sample_in_use (dest := dest) (begun := begun) up (measures_length measures) run sound
      found stream (.inr silent) stands format use
    have notLive : st.live.state ≠ .live := by rcases silent with h | h <;> rw [h] <;> nofun
    have uSound : (s.withPorts p fld plt).sound := sound
    have counted := countingSample_of_within (s := s.withPorts p fld plt) (k := k) fresh sequence measured within
    obtain ⟨remainder, correction, energy, credit, estimated, held, charge, cullet⟩ :=
      bookSample_silent (n := n) (d := d) (g := g) (ms := ms) (base := base) uSound notLive counts
    have frame := bookSample_frame (e := st.entry) (v := st.live) uSound
      { value := n, delta := d, gap := g, gapAmount := g * base, elapsed := ms }
    have accounts (a : Account) (other : a ≠ st.entry.target) := bookSample_liveBase_other (v := st.live) uSound other
      { value := n, delta := d, gap := g, gapAmount := g * base, elapsed := ms }
    rw [handOver_of_counting counts, counted] at row
    generalize (s.withPorts p fld plt).bookSample st.entry st.live
      { value := n, delta := d, gap := g, gapAmount := g * base, elapsed := ms } = r
      at row frame accounts remainder correction energy credit estimated held charge cullet
    refine ⟨_, row, ?_, ?_, ?_, ?_, ?_, ?_, fun f => ?_, fun f => ?_, fun a other => ?_, fun j other => ?_⟩
    · rw [settle_stream, State.stream_setStreamLive_same, if_neg notLive, remainder]
      rfl
    · rw [settle_liveBase]
      exact correction
    · rw [settle_liveBase]
      exact energy
    · rw [settle_liveBase]
      exact credit
    · rw [settle_liveBase]
      exact estimated
    · rw [settle_liveBase]
      exact held
    · rw [settle_fLive]
      exact charge f
    · rw [settle_fLive]
      exact cullet f
    · rw [settle_liveBase]
      exact accounts a other
    · rw [settle_stream, State.stream_setStreamLive_other _ other.symm, frame]
      rfl
end

section
/-! PROOFS. Samples and hellos of pairs that no enabled stream holds, and in PASS (R14, R29, R44, R47). -/

namespace Sys2Proof.Machine

set_option Elab.async false

section
variable {s t : State}

/-! ### The way to the stream table (R159 to R161) -/

theorem tap_smpl (s : State) (dest src : Byte) (payload : List Byte) :
    s.tap .field ⟨dest, src, kindSmpl, payload⟩ = s.tapSmpl src payload := rfl

theorem tap_helo (s : State) (dest src : Byte) (payload : List Byte) :
    s.tap .field ⟨dest, src, kindHelo, payload⟩ = s.tapHelo src payload := rfl

theorem tapSmpl_cons (s : State) (src b : Byte) (value : List Byte) : s.tapSmpl src (b :: value) =
    s.matchFrame src (b.toNat % 16) kindSmpl fun k t => t.streamSample k (sampleOf (b.toNat / 16) value) := rfl

theorem tapHelo_cons (s : State) (src b : Byte) (rest : List Byte) : ∃ named, s.tapHelo src (b :: rest) =
    s.matchFrame src (b.toNat % 16) kindHelo fun k t => t.streamHelo k named := by
  cases rest <;> exact ⟨_, rfl⟩

/-- R47: a pair that no enabled stream holds. -/
theorem matchFrame_of_unbound (run : s.run ≠ .pass) {src : Byte} {ch : Nat}
    (unbound : ∀ k, s.findStream src ch = some k → s.enabled k = false) (kind : Byte) (act : Fin 48 → State → State) :
    s.matchFrame src ch kind act = s.hear src ch kind := by
  unfold State.matchFrame
  rw [if_neg run]
  cases found : s.findStream src ch with
  | none => rfl
  | some k => exact if_neg (by rw [unbound k found]; exact Bool.false_ne_true)

theorem matchFrame_of_pass (pass : s.run = .pass) (src : Byte) (ch : Nat) (kind : Byte) (act : Fin 48 → State → State) :
    s.matchFrame src ch kind act = s := if_pos pass

theorem tapSmpl_of_pass (pass : s.run = .pass) (src : Byte) (payload : List Byte) : s.tapSmpl src payload = s := by
  unfold State.tapSmpl
  split
  · rfl
  · exact matchFrame_of_pass pass ..

theorem tapHelo_of_pass (pass : s.run = .pass) (src : Byte) (payload : List Byte) : s.tapHelo src payload = s := by
  unfold State.tapHelo
  split
  · rfl
  · exact matchFrame_of_pass pass ..

/-! ### The heard list (R47) -/

theorem hear_frame (s : State) (src : Byte) (ch : Nat) (kind : Byte) : s.hear src ch kind = { s with
    heard := hearOn s.heard { source := src, channel := ch, kind := kind, time := s.now }
    attention := (s.hear src ch kind).attention } := by
  unfold State.hear
  dsimp only
  split <;> rfl

theorem hear_isPending (s : State) (src : Byte) (ch : Nat) (kind : Byte) : (s.hear src ch kind).attention.isPending .hear =
    (s.attention.isPending .hear || !s.heard.any fun h => decide (h.source = src ∧ h.channel = ch)) := by
  unfold State.hear
  dsimp only
  split
  next known => rw [known, Bool.not_true, Bool.or_false]
  next fresh =>
    rw [Bool.eq_false_iff.2 fresh, Bool.not_false, Bool.or_true]
    exact (isPending_setPending _ _ _ _).trans (if_pos rfl)

/-! ### Bad frames -/

/-- R159, R162: a bad frame changes its port and the free values alone. -/
theorem endStored_portsOnly (s : State) (p : Side) (bytes : List Byte) (good : Bool) : s.PortsOnly (s.endStored p bytes good) := by
  unfold State.endStored
  dsimp only
  split
  · exact .setPort s rfl rfl rfl
  · refine (State.PortsOnly.setPort s ?_ ?_ ?_).trans ((State.testRoom_portsOnly _ p).trans (.setPort _ ?_ ?_ ?_)) <;> rfl

theorem badEnd_portsOnly (s : State) (p : Side) (bytes : List Byte) : s.PortsOnly (s.badEnd p bytes) := by
  have counted : s.PortsOnly (s.setPort p { s.port p with badCheck := bump (s.port p).badCheck }) := .setPort s rfl rfl rfl
  unfold State.badEnd
  dsimp only
  split
  · split
    · exact counted.trans (endStored_portsOnly _ p bytes false)
    · exact counted.trans (.setPort _ rfl rfl rfl)
  · exact .refl s

/-- R14, R29, R44: in PASS the stream table takes no frame. -/
theorem receive_of_pass {f : Frame} {begun : Begun} (taps : ∀ t : State, t.run = .pass → t.tap .field f = t)
    (pass : s.run = .pass) : s.PortsOnly (s.receive .field f begun) := by
  have forwarded := s.forward_portsOnly .field f begun
  unfold State.receive
  split
  · split
    · rw [taps _ ((congrArg State.run forwarded.frame :).trans pass)]
      exact forwarded
    · exact badEnd_portsOnly s .field _
  · exact .refl s

end

end Sys2Proof.Machine

open Sys2Proof Sys2Proof.Machine

/-- Settles O28: the tap finds no enabled stream, and in PASS asks for none. -/
theorem unboundPairIsHeard : Obligations.UnboundPairIsHeard := by
  refine ⟨?_, ?_⟩
  · intro dest src b rest begun s c kind up short run frame unbound x known
    have row : ∃ t, s.PortsOnly t ∧ exec c s = .next (settle (t.hear src (b.toNat % 16) kind)) := by
      have taken {f : Frame} (payload : f.payload = b :: rest)
          (taps : ∀ t : State, t.run ≠ .pass → (∀ k, t.findStream src (b.toNat % 16) = some k → t.enabled k = false) →
            t.tap .field f = t.hear src (b.toNat % 16) kind) (row : exec c s = .next (settle (s.receive .field f begun))) :
          ∃ t, s.PortsOnly t ∧ exec c s = .next (settle (t.hear src (b.toNat % 16) kind)) := by
        have forwarded := s.forward_portsOnly .field f begun
        have received := receive_of_short s .field (begun := begun) up (by rw [payload]; exact Nat.succ_le_succ short)
        generalize s.forward .field f begun = t at forwarded received
        refine ⟨t, forwarded, row.trans (next_settle (received.trans (taps t ?_ ?_)))⟩
        · rw [forwarded.frame]
          exact run
        · rw [forwarded.frame]
          exact unbound
      rcases frame with ⟨rfl, rfl⟩ | ⟨rfl, rfl⟩
      · exact taken (f := ⟨dest, src, kindSmpl, b :: rest⟩) rfl
          (fun t run unbound => ((tap_smpl ..).trans (tapSmpl_cons ..)).trans (matchFrame_of_unbound run unbound kindSmpl _)) rfl
      · refine taken (f := ⟨dest, src, kindHelo, b :: rest⟩) rfl (fun t run unbound => ?_) rfl
        obtain ⟨named, taps⟩ := tapHelo_cons t src b rest
        exact ((tap_helo ..).trans taps).trans (matchFrame_of_unbound run unbound kindHelo _)
    obtain ⟨t, ports, row⟩ := row
    obtain ⟨p, fld, plt, rfl⟩ := ports.exists_withPorts
    refine ⟨_, row, ?_, ?_, ?_, ?_, ?_⟩
    · rw [settle_heard, hear_frame]
      rfl
    · rw [settle_isPending (by decide) (by decide), hear_isPending]
      rfl
    · rw [settle_streams, hear_frame]
      rfl
    · rw [settle_furnaceLive, hear_frame]
      rfl
    · rw [settle_lineLive, hear_frame]
      rfl
  · intro dest src payload begun s c pass frame
    have row : ∃ t, s.PortsOnly t ∧ exec c s = .next (settle t) := by
      rcases frame with rfl | rfl
      · exact ⟨_, receive_of_pass (f := ⟨dest, src, kindSmpl, payload⟩) (fun t pass => tapSmpl_of_pass pass src payload) pass, rfl⟩
      · exact ⟨_, receive_of_pass (f := ⟨dest, src, kindHelo, payload⟩) (fun t pass => tapHelo_of_pass pass src payload) pass, rfl⟩
    obtain ⟨t, ports, row⟩ := row
    obtain ⟨p, fld, plt, rfl⟩ := ports.exists_withPorts
    refine ⟨_, row, ?_, ?_, ?_, ?_, ?_, settle_isPending (by decide) (by decide) _, settle_strm_isPending _, settle_strm _⟩
    · exact settle_streams ..
    · exact settle_heard ..
    · exact settle_jobs ..
    · exact settle_furnaceLive ..
    · exact settle_lineLive ..
end

section
/-! PROOFS. Hellos of enabled streams (R30 to R32, R38). -/

namespace Sys2Proof.Machine

set_option Elab.async false

section
variable {s w : State} {k : Fin 48} {st : Stream}

/-! ### A hello at its stream -/

/-- A stream in LIVE, STALE or LOST. -/
abbrev StreamLive.Bound (v : StreamLive) : Prop := v.state = .live ∨ v.state = .stale ∨ v.state = .lost

/-- R46: a format fault counted. -/
def StreamLive.faulted (v : StreamLive) : StreamLive :=
  { v with counts := { v.counts with formatFaults := min 4294967295 (v.counts.formatFaults + 1) } }

theorem formatFault_eq (v : StreamLive) : v.formatFault = v.faulted := by
  unfold StreamLive.formatFault StreamLive.faulted
  rw [bump_eq]

/-- R38: the stream before the hello is judged: a bound one has restarted. -/
def StreamLive.restarted (v : StreamLive) : StreamLive :=
  if v.Bound then { v.faulted with
    state := .wait, base := none, lastSeq := none, format := none, inferred := false, deferral := false
    pending := 0, staleAt := none, intervalAt := none, holdAt := none }
  else v

/-- R38, R45: the state before the hello is judged. -/
def State.restarting (s : State) (k : Fin 48) (st : Stream) : State :=
  if st.live.Bound then
    s.recorded k st (s.heldBase k (s.liveBase st.entry.target)) st.live.restarted .format
  else s

/-- R30, R32: the choice of a hello offered, or the fault counted. -/
def State.offered (w : State) (k : Fin 48) (st : Stream) (v x : StreamLive) (chosen : Option Format) : State :=
  match chosen with
  | some f => w.offerFormat k st v f
  | none => w.faultFormat k st x

theorem heloInWait_eq (w : State) (k : Fin 48) (st : Stream) (v : StreamLive) (named : FormatSet) :
    w.heloInWait k st v named =
      if v.adoptOnly then w.setStreamLive k st v else w.offered k st v v (chooseFormat st.entry named) := by
  unfold State.heloInWait State.offered
  split
  · rfl
  · cases chooseFormat st.entry named <;> rfl

/-- R30, R32, R38: what a hello makes of its stream. -/
theorem streamHelo_of_sound (sound : s.sound) (stream : s.stream k = some st) (on : st.live.state ≠ .off) (named : FormatSet) :
    s.streamHelo k named =
      if st.live.adoptOnly = true ∧ st.live.state ≠ .select then
        (s.restarting k st).setStreamLive k st st.live.restarted
      else (s.restarting k st).offered k st st.live.restarted
        (if st.live.state = .select then { st.live with state := .wait, format := none, selectAt := none }
          else st.live.restarted) (chooseFormat st.entry named) := by
  have adopts : st.live.restarted.adoptOnly = st.live.adoptOnly := by
    unfold StreamLive.restarted
    split <;> rfl
  have bound (h : st.live.Bound) : s.restart k st named = if st.live.adoptOnly then
      (s.restarting k st).setStreamLive k st st.live.restarted
      else (s.restarting k st).offered k st st.live.restarted st.live.restarted (chooseFormat st.entry named) := by
    have live : ({ st.live.formatFault with
        state := .wait, base := none, lastSeq := none, format := none, inferred := false, deferral := false
        pending := 0, staleAt := none, intervalAt := none, holdAt := none } : StreamLive) = st.live.restarted := by
      rw [formatFault_eq]
      exact (if_pos h).symm
    rw [← adopts, ← heloInWait_eq]
    unfold State.restart State.restarting
    rw [if_pos h]
    dsimp only
    rw [live, addHeld_of_sound (s := (s.setStreamLive k st st.live.restarted).raiseStream k .format) sound]
    unfold State.recorded State.written
    cases st.entry.target <;> rfl
  have waiting (h : ¬st.live.Bound) : st.live.restarted = st.live ∧ s.restarting k st = s := ⟨if_neg h, if_neg h⟩
  unfold State.streamHelo
  rw [stream]
  dsimp only
  cases state : st.live.state with
  | off => exact absurd state on
  | wait =>
    obtain ⟨live, same⟩ := waiting (by unfold StreamLive.Bound; rw [state]; nofun)
    rw [live, same, heloInWait_eq]
    simp
  | select =>
    obtain ⟨live, same⟩ := waiting (by unfold StreamLive.Bound; rw [state]; nofun)
    rw [live, same, if_neg fun h => h.2 rfl, if_pos rfl]
    unfold State.heloInSelect State.offered
    cases chooseFormat st.entry named <;> rfl
  | live =>
    rw [bound (.inl state)]
    simp
  | stale =>
    rw [bound (.inr (.inl state))]
    simp
  | lost =>
    rw [bound (.inr (.inr state))]
    simp

/-! ### The restart -/

theorem restarting_frame (s : State) (k : Fin 48) (st : Stream) : s.restarting k st = { s with
    furnaceLive := (s.restarting k st).furnaceLive, lineLive := (s.restarting k st).lineLive
    streams := (s.restarting k st).streams, attention := (s.restarting k st).attention } := by
  unfold State.restarting
  split
  · rw [recorded_frame]
  · rfl

theorem restarting_stream_other {j : Fin 48} (other : j ≠ k) : (s.restarting k st).stream j = s.stream j := by
  unfold State.restarting
  split
  · exact recorded_stream_other _ _ _ _ _ _ other
  · rfl

theorem restarting_liveBase (a : Account) : (s.restarting k st).liveBase a =
    if st.live.Bound ∧ s.run = .run ∧ a = st.entry.target then
      { s.liveBase a with held := vset (s.liveBase a).held k true } else s.liveBase a := by
  unfold State.restarting
  by_cases bound : st.live.Bound
  · rw [if_pos bound, recorded_liveBase, heldBase_eq]
    by_cases target : a = st.entry.target
    · rw [if_pos target, ← target]
      by_cases run : s.run = .run
      · rw [if_pos run, if_pos ⟨bound, run, rfl⟩]
      · rw [if_neg run, if_neg fun h => run h.2.1]
    · rw [if_neg target, if_neg fun h => target h.2.2]
  · rw [if_neg bound, if_neg fun h => bound h.1]

theorem restarting_strm (bound : st.live.Bound) : (s.restarting k st).attention.isPending .strm = true ∧
    (vget (s.restarting k st).attention.strm k).format = true := by
  unfold State.restarting
  rw [if_pos bound, recorded_strm]
  exact ⟨recorded_isPending .., rfl⟩

/-! ### The offer -/

theorem offerFormat_frame (w : State) (k : Fin 48) (st : Stream) (v : StreamLive) (f : Format) :
    w.offerFormat k st v f = { w with
      streams := vset w.streams k (some { st with live := { v with
        state := .select, format := some f, selectAt := some (w.clock.elapsed + 2000) } })
      field := (w.offerFormat k st v f).field, plant := (w.offerFormat k st v f).plant } := by
  unfold State.offerFormat
  rw [State.pushLocal_frame]
  rfl

/-- R31: the slct is queued where a slot is free. -/
theorem offerFormat_localQueue (up : w.field.link = .up) (k : Fin 48) (st : Stream) (v : StreamLive) (f : Format) :
    (w.offerFormat k st v f).field.localQueue = if w.field.slots < 4 then
      w.field.localQueue ++ [{ dest := st.entry.source, src := w.address, kind := 3#8
                               payload := [BitVec.ofNat 8 st.entry.channel, BitVec.ofNat 8 f.code] }]
      else w.field.localQueue := by
  have frame : w.slctFrame st.entry f =
      ⟨st.entry.source, w.address, 3#8, [BitVec.ofNat 8 st.entry.channel, BitVec.ofNat 8 f.code]⟩ := by
    unfold State.slctFrame
    rw [be_one_eq, be_one_eq]
    rfl
  unfold State.offerFormat
  rw [frame]
  generalize slct : (Frame.mk _ _ _ _) = x
  split
  next room =>
    exact congrArg (fun y => y.field.localQueue) (State.pushLocal_of_room (w.setStreamLive k st _) .field x up room)
  next full =>
    exact congrArg (fun y => y.field.localQueue)
      (State.pushLocal_of_lost (w.setStreamLive k st _) .field x (.inr (Nat.not_lt.1 full)))

theorem faultFormat_frame (w : State) (k : Fin 48) (st : Stream) (x : StreamLive) : w.faultFormat k st x = { w with
    streams := vset w.streams k (some { st with live := x.faulted }), attention := (w.raiseStream k .format).attention } := by
  unfold State.faultFormat
  rw [formatFault_eq]
  rfl

theorem chooseFormat_eq (e : StreamEntry) (named : FormatSet) : chooseFormat e named =
    (if e.category = .gobw then [Format.value] else [.total32, .step, .total16]).find? fun f => named.has f && e.formats.has f := by
  unfold chooseFormat
  cases e.category <;> rfl

end

end Sys2Proof.Machine

open Sys2Proof Sys2Proof.Machine

/-- Settles O29: the stream restarts where it is bound, and then the hello is ignored, offers its choice or is a fault. -/
theorem heloSelectsAFormat : Obligations.HeloSelectsAFormat := by
  intro dest src b fs rest begun s k st up short run sound found stream on v bound both chosen fault back ignored
  obtain ⟨t, ports, row⟩ := exec_heloReceived (dest := dest) (fs := fs) (begun := begun) up short run sound found stream on
  have queue : t.field.localQueue = s.field.localQueue := ports.localQueue .field
  have slots : t.field.slots = s.field.slots := congrArg₂ (· + ·) (congrArg List.length queue) (ports.reserved .field)
  have link : t.field.link = .up := (ports.link .field).trans up
  obtain ⟨n, fld, plt, rfl⟩ := ports.exists_withPorts
  have choice : chooseFormat st.entry (formatSetOf fs) = chosen := by
    rw [chooseFormat_eq]
    refine congrArg (List.find? · _) (funext fun f => ?_)
    cases f <;> rfl
  have taken := streamHelo_of_sound (s := s.withPorts n fld plt) sound stream on (formatSetOf fs)
  rw [choice] at taken
  have frame := restarting_frame (s.withPorts n fld plt) k st
  have others (j : Fin 48) (other : j ≠ k) := restarting_stream_other (s := s.withPorts n fld plt) (st := st) other
  have accounts := restarting_liveBase (s := s.withPorts n fld plt) (k := k) (st := st)
  have strm := restarting_strm (s := s.withPorts n fld plt) (k := k) (st := st)
  generalize (s.withPorts n fld plt).restarting k st = w at taken frame others accounts strm
  generalize (s.withPorts n fld plt).streamHelo k (formatSetOf fs) = u at row taken
  have field : w.field = fld := (congrArg State.field frame :)
  have heard : w.heard = s.heard := (congrArg State.heard frame :)
  have clock : w.clock = s.clock := (congrArg State.clock frame :)
  have address : w.address = s.address := (congrArg State.address frame :)
  have slots : fld.slots = s.field.slots := slots
  have queue : fld.localQueue = s.field.localQueue := queue
  refine ⟨u, row, ?_⟩
  by_cases ignores : ignored
  · rw [if_pos ignores] at taken
    subst taken
    refine ⟨fun _ => ⟨vget_vset_same _ _ _, (congrArg Port.localQueue field).trans queue⟩, fun on => absurd ignores on,
      fun on => absurd ignores on, fun faults => strm (faults.resolve_right fun h => h.1 ignores), fun a => ?_,
      fun j other => (vget_vset_other _ other.symm _).trans (others j other), heard⟩
    refine Eq.trans ?_ (accounts a)
    cases a <;> rfl
  · rw [if_neg ignores] at taken
    unfold State.offered at taken
    cases choose : chosen with
    | some f =>
      rw [choose] at taken
      dsimp only at taken
      have offer := offerFormat_frame w k st st.live.restarted f
      have offered := offerFormat_localQueue (w := w) (by rw [field]; exact link) k st st.live.restarted f
      rw [← taken] at offer offered
      refine ⟨fun h => absurd h ignores, fun _ g same => ?_, fun _ none => (nomatch none), fun faults => ?_, fun a => ?_,
        fun j other => ?_, (congrArg State.heard offer :).trans heard⟩
      · obtain rfl := Option.some.inj same
        refine ⟨?_, ?_⟩
        · rw [offer, clock]
          exact vget_vset_same _ _ _
        · rw [offered, field, slots, queue, address]
      · rw [offer]
        exact strm (faults.resolve_right fun h => (nomatch h.2))
      · rw [offer]
        refine Eq.trans ?_ (accounts a)
        cases a <;> rfl
      · rw [offer]
        exact (vget_vset_other _ other.symm _).trans (others j other)
    | none =>
      rw [choose] at taken
      dsimp only at taken
      have faulted := faultFormat_frame w k st
        (if st.live.state = .select then { st.live with state := .wait, format := none, selectAt := none }
          else st.live.restarted)
      rw [← taken] at faulted
      refine ⟨fun h => absurd h ignores, fun _ g same => (nomatch same), fun _ _ => ⟨?_, ?_⟩, fun _ => ?_, fun a => ?_,
        fun j other => ?_, (congrArg State.heard faulted :).trans heard⟩
      · rw [faulted]
        exact (congrArg Port.localQueue field).trans queue
      · rw [faulted]
        exact vget_vset_same _ _ _
      · rw [faulted]
        refine ⟨raiseStream_isPending w k .format, ?_⟩
        exact congrArg StreamCauses.format (raiseStream_strm w k .format)
      · rw [faulted]
        refine Eq.trans ?_ (accounts a)
        cases a <;> rfl
      · rw [faulted]
        exact (vget_vset_other _ other.symm _).trans (others j other)
end

section
/-! PROOFS. Samples that give their stream a base, samples in another format, and gob-weight values (R32 to R37, R71,
R72). -/

namespace Sys2Proof.Machine

set_option Elab.async false

section
variable {s : State} {k : Fin 48} {st : Stream} {l : Fin 8} {n : Nat}

/-! ### Gob-weight values (R71, R72) -/

/-- R72: a weight hold of a stream counted. -/
def StreamLive.weightHeld (v : StreamLive) : StreamLive :=
  { v with counts := { v.counts with weightHolds := min 4294967295 (v.counts.weightHolds + 1) } }

/-- R72: a weight hold of a line counted, the stream that gave the value held. -/
def LineLive.weightHeld (x : LineLive) (k : Fin 48) : LineLive := { x with
  weightHolds := min 4294967295 (x.weightHolds + 1)
  base := { x.base with held := vset x.base.held k true } }

/-- R72: a value within the gob-weight band of a line. -/
abbrev State.inGobBand (s : State) (l : Fin 8) (n : Nat) : Prop := (s.lineCfg l).gobLow ≤ n ∧ n ≤ (s.lineCfg l).gobHigh

theorem gobValue_of_furnace (stream : s.stream k = some st) {f : Fin 4} (target : st.entry.target = .furnace f) :
    s.gobValue k n = s := by
  unfold State.gobValue
  simp only [stream, target]

theorem gobValue_of_band (sound : s.sound) (stream : s.stream k = some st) (target : st.entry.target = .line l)
    (band : s.inGobBand l n) : s.gobValue k n = { s with jobs := vset s.jobs l { s.job l with weight := n } } := by
  unfold State.gobValue
  simp only [stream, target, touch_of_sound sound]
  exact if_pos band

/-- R45, R72: a line's live set written, and then a stream of the line held. -/
theorem setLLive_addHeld (sound : s.sound) (run : s.run = .run) {e : StreamEntry} (target : e.target = .line l) (x : LineLive) :
    (s.setLLive l x).addHeld k e = s.setLLive l { x with base := x.base.hold k } := by
  have entry : (s.setLLive l x).lLive l = x := vget_vset_same _ _ _
  have held : (s.setLLive l x).heldBase k ((s.setLLive l x).liveBase (.line l)) = x.base.hold k := by
    refine (if_pos run).trans ?_
    exact congrArg (fun y : LineLive => y.base.hold k) entry
  rw [addHeld_of_sound (s := s.setLLive l x) sound, target, held]
  show (s.setLLive l x).setLLive l { (s.setLLive l x).lLive l with base := x.base.hold k } = _
  rw [entry]
  exact congrArg (fun v => { s with lineLive := v }) (vset_vset _ _ _ _)

theorem gobValue_of_outside (sound : s.sound) (stream : s.stream k = some st) (target : st.entry.target = .line l)
    (outside : ¬s.inGobBand l n) : s.gobValue k n = { s with
      streams := vset s.streams k (some { st with live := st.live.weightHeld })
      lineLive := if s.run = .run then vset s.lineLive l ((s.lLive l).weightHeld k) else s.lineLive } := by
  unfold State.gobValue
  simp only [stream, target, touch_of_sound sound]
  rw [if_neg outside, bump_eq]
  generalize held : ({ st.live with counts := { st.live.counts with
    weightHolds := min 4294967295 (st.live.counts.weightHolds + 1) } } : StreamLive) = v
  have counted : (s.setStreamLive k st v).sound := sound
  rw [show st.live.weightHeld = v from held]
  by_cases run : s.run = .run
  · rw [if_pos (show (s.setStreamLive k st _).run = .run from run), if_pos run, touch_of_sound counted, bump_eq]
    exact setLLive_addHeld counted run target _
  · rw [if_neg (show ¬(s.setStreamLive k st _).run = .run from run), if_neg run]
    rfl

/-- A sample taken by its stream, its value judged as a gob weight where the stream gives one. -/
def State.gobTaken (s : State) (k : Fin 48) (st : Stream) (v : StreamLive) (n : Nat) : State :=
  if st.entry.category = .gobw then (s.setStreamLive k st v).gobValue k n else s.setStreamLive k st v

/-- R72: the value is held back from the line, whose band it lies outside. -/
abbrev State.heldBack (s : State) (e : StreamEntry) (n : Nat) (l : Fin 8) : Prop :=
  e.category = .gobw ∧ e.target = .line l ∧ ¬s.inGobBand l n

theorem gobTaken_of_held (sound : s.sound) (v : StreamLive) (held : s.heldBack st.entry n l) :
    s.gobTaken k st v n = { s with
      streams := vset s.streams k (some { st with live := v.weightHeld })
      lineLive := if s.run = .run then vset s.lineLive l ((s.lLive l).weightHeld k) else s.lineLive } := by
  obtain ⟨gobw, target, outside⟩ := held
  have entered : (s.setStreamLive k st v).stream k = some { st with live := v } := State.stream_setStreamLive_same ..
  refine (if_pos gobw).trans ((gobValue_of_outside (s := s.setStreamLive k st v) sound entered target outside).trans ?_)
  exact congrArg (fun x => ({ s with
    streams := x, lineLive := if s.run = .run then vset s.lineLive l ((s.lLive l).weightHeld k) else s.lineLive } : State))
    (vset_vset _ _ _ _)

theorem gobTaken_of_fits (sound : s.sound) (v : StreamLive) (gobw : st.entry.category = .gobw)
    (target : st.entry.target = .line l) (fits : s.inGobBand l n) : s.gobTaken k st v n = { s with
      streams := vset s.streams k (some { st with live := v }), jobs := vset s.jobs l { s.job l with weight := n } } := by
  have entered : (s.setStreamLive k st v).stream k = some { st with live := v } := State.stream_setStreamLive_same ..
  exact (if_pos gobw).trans (gobValue_of_band (s := s.setStreamLive k st v) sound entered target fits)

theorem gobTaken_of_no_line (v : StreamLive) (none : ¬∃ l, st.entry.category = .gobw ∧ st.entry.target = .line l) :
    s.gobTaken k st v n = { s with streams := vset s.streams k (some { st with live := v }) } := by
  unfold State.gobTaken
  split
  next gobw =>
    cases target : st.entry.target with
    | furnace f =>
      have entered : (s.setStreamLive k st v).stream k = some { st with live := v } := State.stream_setStreamLive_same ..
      exact gobValue_of_furnace entered target
    | line l => exact absurd ⟨l, gobw, target⟩ none
  next => rfl

/-- R71, R72: what a taken sample changes: its stream, and the job or the live set of the line whose gob weight it gives. -/
theorem gobTaken_spec (sound : s.sound) (k : Fin 48) (st : Stream) (v : StreamLive) (n : Nat) :
    (s.gobTaken k st v n).stream k = some { st with live := { v with counts := { v.counts with
      weightHolds := if ∃ l, s.heldBack st.entry n l then min 4294967295 (v.counts.weightHolds + 1)
        else v.counts.weightHolds } } } ∧
    (∀ l, (s.gobTaken k st v n).job l =
      if st.entry.category = .gobw ∧ st.entry.target = .line l ∧ ¬s.heldBack st.entry n l then
        { s.job l with weight := n } else s.job l) ∧
    (∀ l, (s.gobTaken k st v n).lLive l =
      if s.heldBack st.entry n l ∧ s.run = .run then (s.lLive l).weightHeld k else s.lLive l) ∧
    (∀ j, j ≠ k → (s.gobTaken k st v n).stream j = s.stream j) ∧
    (s.gobTaken k st v n).furnaceLive = s.furnaceLive ∧ (s.gobTaken k st v n).heard = s.heard := by
  by_cases line : ∃ l, st.entry.category = .gobw ∧ st.entry.target = .line l
  · obtain ⟨l, gobw, target⟩ := line
    have only {i : Fin 8} (h : st.entry.target = .line i) : l = i := Account.line.inj (target.symm.trans h)
    by_cases fits : s.inGobBand l n
    · have free (i : Fin 8) : ¬s.heldBack st.entry n i := fun h => by
        obtain rfl := only h.2.1
        exact h.2.2 fits
      rw [gobTaken_of_fits sound v gobw target fits, if_neg fun ⟨i, h⟩ => free i h]
      refine ⟨vget_vset_same _ _ _, fun i => ?_, fun i => (if_neg fun h => free i h.1).symm,
        fun j other => vget_vset_other _ other.symm _, rfl, rfl⟩
      refine (vget_vset _ _ _ _).trans ?_
      by_cases same : l = i
      · subst same
        rw [if_pos rfl, if_pos ⟨gobw, target, free l⟩]
      · rw [if_neg same, if_neg fun h => same (only h.2.1)]
        rfl
    · have held : s.heldBack st.entry n l := ⟨gobw, target, fits⟩
      rw [gobTaken_of_held sound v held, if_pos (⟨l, held⟩ : ∃ l, s.heldBack st.entry n l)]
      refine ⟨vget_vset_same _ _ _, fun i => ?_, fun i => ?_, fun j other => vget_vset_other _ other.symm _, rfl, rfl⟩
      · refine (if_neg fun h => h.2.2 ?_).symm
        obtain rfl := only h.2.1
        exact held
      · show vget (if s.run = .run then _ else _) i = _
        by_cases run : s.run = .run
        · rw [if_pos run, vget_vset]
          by_cases same : l = i
          · subst same
            rw [if_pos rfl, if_pos ⟨held, run⟩]
          · rw [if_neg same, if_neg fun h => same (only h.1.2.1)]
            rfl
        · rw [if_neg run, if_neg fun h => run h.2]
          rfl
  · have free (i : Fin 8) : ¬s.heldBack st.entry n i := fun h => line ⟨i, h.1, h.2.1⟩
    rw [gobTaken_of_no_line v line, if_neg fun ⟨i, h⟩ => free i h]
    exact ⟨vget_vset_same _ _ _, fun i => (if_neg fun h => line ⟨i, h.1, h.2.1⟩).symm,
      fun i => (if_neg fun h => free i h.1).symm, fun j other => vget_vset_other _ other.symm _, rfl, rfl⟩

/-! ### Samples that give a base, and those that do not (R32, R34, R35, R43) -/

/-- A sample whose format is none carries no value, and the others by their format. -/
theorem sampleOf_of_format {code : Nat} {value : List Byte} {f : Format} (format : (sampleOf code value).format = some f) :
    sampleOf code value = ⟨some f, decide (code = 0), if f = .step then beNat (value.take 2) else beNat value,
      if f = .step then beNat (value.drop 2) else 0⟩ := by
  unfold sampleOf at format ⊢
  split at format
  case h_7 => nomatch format
  all_goals
    cases format
    rfl

/-- R43: a STALE or LOST stream without a base. -/
abbrev StreamLive.Baseless (v : StreamLive) : Prop := (v.state = .stale ∨ v.state = .lost) ∧ v.base = none

/-- R32, R34, R35, R43: the sample's format is one that gives the stream a base. -/
abbrev Stream.suits (st : Stream) (smp : Sample) (f : Format) : Prop := smp.format = some f ∧
  ((st.live.state = .wait ∨ st.live.Baseless) ∧ st.entry.formats.has f = true ∨
    st.live.state = .select ∧ st.live.format = some f)

/-- R32, R34, R43: the stream that takes the sample as its base, but for the base, which the format gives. -/
def Stream.binding (st : Stream) (short : Bool) : StreamLive := { st.live with
  inferred := decide (st.live.state ≠ .select) && short
  attempts := if st.live.Baseless then st.live.attempts else 0
  pending := if st.live.Baseless then 0 else st.live.pending }

theorem accepts_eq_some {e : StreamEntry} {smp : Sample} {f : Format} (format : smp.format = some f)
    (accepted : e.formats.has f = true) : e.accepts smp = some f := by
  unfold StreamEntry.accepts
  rw [format]
  exact if_pos accepted

theorem accepts_eq_none {e : StreamEntry} {smp : Sample} (rejected : ∀ f, smp.format = some f → e.formats.has f ≠ true) :
    e.accepts smp = none := by
  unfold StreamEntry.accepts
  cases format : smp.format with
  | none => rfl
  | some f => exact if_neg (rejected f format)

theorem streamSample_of_suits (stream : s.stream k = some st) {smp : Sample} {f : Format} (suits : st.suits smp f) :
    s.streamSample k smp = s.takeBase k st (st.binding smp.short) f smp := by
  obtain ⟨format, ⟨wait | baseless, accepted⟩ | ⟨select, chosen⟩⟩ := suits
  · have other : ¬st.live.Baseless := fun h => by rcases h.1 with h | h <;> rw [wait] at h <;> nomatch h
    unfold State.streamSample State.sampleInWait Stream.binding
    simp only [stream, wait, accepts_eq_some format accepted, if_neg other]
    rfl
  · have bound : s.streamSample k smp = s.sampleWhileBound k st smp :=
      streamSample_of_bound stream (.inr baseless.1) smp
    have other : st.live.state ≠ .select := by rcases baseless.1 with h | h <;> rw [h] <;> nofun
    rw [bound]
    unfold State.sampleWhileBound Stream.binding
    simp only [baseless.2, accepts_eq_some format accepted, if_pos baseless, ne_eq, other, not_false_eq_true, decide_true,
      Bool.true_and]
  · have other : ¬st.live.Baseless := fun h => by rcases h.1 with h | h <;> rw [select] at h <;> nomatch h
    unfold State.streamSample State.sampleInSelect Stream.binding
    simp only [stream, select, format, if_pos chosen, if_neg other]
    rfl

theorem streamSample_of_unsuited (stream : s.stream k = some st) {smp : Sample}
    (open_ : st.live.state = .wait ∨ st.live.Baseless ∨ st.live.state = .select) (unsuited : ∀ f, ¬st.suits smp f) :
    s.streamSample k smp =
      if st.live.state = .select then s.setStreamLive k st st.live.faulted else s.faultFormat k st st.live := by
  rcases open_ with wait | baseless | select
  · have rejected : st.entry.accepts smp = none := accepts_eq_none fun f format accepted =>
      unsuited f ⟨format, .inl ⟨.inl wait, accepted⟩⟩
    unfold State.streamSample State.sampleInWait
    simp only [stream, wait, rejected]
    rfl
  · have rejected : st.entry.accepts smp = none := accepts_eq_none fun f format accepted =>
      unsuited f ⟨format, .inl ⟨.inr baseless, accepted⟩⟩
    have other : st.live.state ≠ .select := by rcases baseless.1 with h | h <;> rw [h] <;> nofun
    rw [streamSample_of_bound stream (.inr baseless.1), if_neg other]
    unfold State.sampleWhileBound
    simp only [baseless.2, rejected]
  · unfold State.streamSample State.sampleInSelect
    simp only [stream, select, if_true, formatFault_eq]
    cases format : smp.format with
    | none => rfl
    | some f => exact if_neg fun chosen => unsuited f ⟨format, .inr ⟨select, chosen⟩⟩

/-- R32, R34, R35, R43: the stream bound by a sample. -/
def Stream.bound (st : Stream) (now : Nat) (short : Bool) (f : Format) (n : Nat) (q : Option Nat) : StreamLive :=
  { st.binding short with
    state := .live, format := some f, base := some n, lastSeq := q, lastGood := some now, deferral := false
    selectAt := none, intervalAt := none, staleAt := some (now + 3 * st.entry.interval * 1000)
    holdAt := some (now + st.entry.hold * 60000) }

theorem takeBase_eq_gobTaken {f : Format} {smp : Sample} (short : Bool) (weight : st.entry.category = .gobw → f = .value) :
    s.takeBase k st (st.binding short) f smp = s.gobTaken k st
      (st.bound s.clock.elapsed short f (st.entry.reduce f smp.value) (if f = .step then some smp.seq else none))
      (st.entry.reduce f smp.value) := by
  unfold State.takeBase State.gobTaken
  dsimp only
  by_cases gobw : st.entry.category = .gobw
  · obtain rfl := weight gobw
    rw [if_pos gobw, if_pos gobw]
    rfl
  · rw [if_neg gobw, if_neg gobw]
    rfl

/-! ### Samples in another format (R37) -/

/-- R37: the stream whose base a sample in another format has taken. -/
def StreamLive.unbased (v : StreamLive) : StreamLive := { v.faulted with base := none, lastSeq := none, pending := 0 }

theorem sampleWhileBound_of_other {base : Nat} (stands : st.live.base = some base) {smp : Sample}
    (other : smp.format = none ∨ st.live.format ≠ smp.format) : s.sampleWhileBound k st smp = s.formatFaultBound k st := by
  unfold State.sampleWhileBound
  rw [stands]
  dsimp only
  cases format : smp.format with
  | none => rfl
  | some f => exact if_neg (format ▸ other.resolve_left (by rw [format]; nofun))

/-- R37, R45: in STALE and LOST the stream joins the held streams. -/
theorem formatFaultBound_of_silent (sound : s.sound) (silent : st.live.state ≠ .live) : s.formatFaultBound k st =
    s.recorded k st (s.heldBase k (s.liveBase st.entry.target)) st.live.unbased .format := by
  unfold State.formatFaultBound
  rw [formatFault_eq]
  refine (if_neg silent).trans ((addHeld_of_sound (s := (s.setStreamLive k st st.live.unbased).raiseStream k .format) sound
    k st.entry).trans ?_)
  unfold State.recorded State.written
  cases st.entry.target <;> rfl

/-- R37, R39: in LIVE the stream enters STALE. -/
theorem formatFaultBound_of_live (sound : s.sound) (live : st.live.state = .live) : s.formatFaultBound k st =
    ((s.setStreamLive k st st.live.unbased).raiseStream k .format).recorded k { st with live := st.live.unbased }
      (s.staleBase k { st with live := st.live.unbased }) (s.staleLive { st with live := st.live.unbased }) .stale := by
  have entered : ((s.setStreamLive k st st.live.unbased).raiseStream k .format).stream k =
      some { st with live := st.live.unbased } := State.stream_setStreamLive_same ..
  unfold State.formatFaultBound
  rw [formatFault_eq]
  refine (if_pos live).trans ((enterStale_eq_recorded (s := (s.setStreamLive k st st.live.unbased).raiseStream k .format) sound
    entered).trans ?_)
  have base : ((s.setStreamLive k st st.live.unbased).raiseStream k .format).staleBase k { st with live := st.live.unbased } =
      s.staleBase k { st with live := st.live.unbased } := by
    unfold State.staleBase State.estimateBase
    cases st.entry.target <;> rfl
  rw [base]
  rfl

end

end Sys2Proof.Machine

open Sys2Proof Sys2Proof.Machine

/-- Settles O30: a sample that suits its stream is taken as its base, another one is a fault, and one in another format
takes the base away. -/
theorem sampleBindsAWaitingStream : Obligations.SampleBindsAWaitingStream := by
  intro dest src b value begun s k st up short run sound found stream x faulted format waits offered baseless suits
  have kind : (sampleOf (b.toNat / 16) value).format = format := by
    dsimp only [format]
    unfold sampleOf
    split
    case h_7 c len not1 not2 not3 not4 not5 not6 =>
      split
      · next c0 l0 => exact (not1 c0 l0).elim
      · next c0 l0 => exact (not3 c0 l0).elim
      · next c0 l0 => exact (not4 c0 l0).elim
      · next c0 l0 => exact (not2 c0 l0).elim
      · next c0 l0 => exact (not5 c0 l0).elim
      · next c0 l0 => exact (not6 c0 l0).elim
      · rfl
    all_goals
      next code length =>
        simp only [code, length]
  have suits_iff (f : Format) : suits f ↔ st.suits (sampleOf (b.toNat / 16) value) f := by
    unfold Stream.suits
    rw [kind]
    cases f <;> exact Iff.rfl
  have taken (on : st.live.state ≠ .off) : ∃ p fld plt, exec (.smplReceived dest src ⟨b :: value, begun⟩) s =
      .next (settle ((s.withPorts p fld plt).streamSample k (sampleOf (b.toNat / 16) value))) := by
    obtain ⟨t, ports, row⟩ := exec_smplReceived (dest := dest) (begun := begun) up short run sound found stream on
    obtain ⟨p, fld, plt, rfl⟩ := ports.exists_withPorts
    exact ⟨p, fld, plt, row⟩
  refine ⟨fun f fits weight => ?_, fun waiting unsuited => ?_, fun base good bound stands last other => ?_⟩
  · intro n heldBack holds
    have on : st.live.state ≠ .off := by
      rcases fits.2 with ⟨wait | ⟨stale | lost, -⟩, -⟩ | ⟨select, -⟩
      · rw [show st.live.state = .wait from wait]
        nofun
      · rw [stale]
        nofun
      · rw [lost]
        nofun
      · rw [show st.live.state = .select from select]
        nofun
    obtain ⟨p, fld, plt, row⟩ := taken on
    have sample := sampleOf_of_format (kind.trans fits.1)
    have reduced : st.entry.reduce f (sampleOf (b.toNat / 16) value).value = n := by
      rw [sample]
      cases f <;> rfl
    have sequence : (if f = .step then some (sampleOf (b.toNat / 16) value).seq else none) =
        if f = .step then some (beNat (value.drop 2)) else none := by
      rw [sample]
      cases f <;> rfl
    have brief : (sampleOf (b.toNat / 16) value).short = decide (b.toNat / 16 = 0) := by rw [sample]
    rw [streamSample_of_suits (s := s.withPorts p fld plt) stream ((suits_iff f).1 fits), takeBase_eq_gobTaken _ weight,
      reduced, sequence, brief] at row
    obtain ⟨streamK, jobs, lines, others, furnaces, heard⟩ := gobTaken_spec (s := s.withPorts p fld plt) sound k st
      (st.bound s.clock.elapsed (decide (b.toNat / 16 = 0)) f n
        (if f = .step then some (beNat (value.drop 2)) else none)) n
    refine ⟨_, row, ?_, fun l => ?_, fun l => ?_, fun j other => ?_, ?_, ?_⟩
    · rw [settle_stream]
      refine streamK.trans ?_
      have inferred : (decide (st.live.state ≠ .select) && decide (b.toNat / 16 = 0)) = decide (¬offered ∧ b.toNat / 16 = 0) :=
        (Bool.decide_and _ _).symm
      rw [← inferred]
      rfl
    · rw [settle_job]
      exact jobs l
    · rw [settle_lLive]
      exact lines l
    · rw [settle_stream]
      exact others j other
    · rw [settle_furnaceLive]
      exact furnaces
    · rw [settle_heard]
      exact heard
  · have on : st.live.state ≠ .off := by
      rcases waiting with wait | ⟨stale | lost, -⟩ | select
      · rw [show st.live.state = .wait from wait]
        nofun
      · rw [stale]
        nofun
      · rw [lost]
        nofun
      · rw [show st.live.state = .select from select]
        nofun
    obtain ⟨p, fld, plt, row⟩ := taken on
    rw [streamSample_of_unsuited (s := s.withPorts p fld plt) stream waiting
      fun f h => unsuited f ((suits_iff f).2 h)] at row
    by_cases select : st.live.state = .select
    · rw [if_pos select] at row
      refine ⟨_, row, ?_, fun h => absurd select h, fun _ => ?_, fun j other => ?_, ?_, ?_, ?_⟩
      · rw [settle_stream]
        exact State.stream_setStreamLive_same ..
      · rw [settle_strm]
        rfl
      · rw [settle_stream, State.stream_setStreamLive_other _ other.symm]
        rfl
      · rw [settle_furnaceLive]
        rfl
      · rw [settle_lineLive]
        rfl
      · rw [settle_heard]
        rfl
    · rw [if_neg select, faultFormat_frame] at row
      refine ⟨_, row, ?_, fun _ => ⟨?_, ?_⟩, fun h => absurd h select, fun j other => ?_, ?_, ?_, ?_⟩
      · rw [settle_stream]
        exact vget_vset_same _ _ _
      · rw [settle_strm_isPending]
        exact raiseStream_isPending _ k .format
      · rw [settle_strm]
        exact congrArg StreamCauses.format (raiseStream_strm (s.withPorts p fld plt) k .format)
      · rw [settle_stream]
        exact vget_vset_other _ other.symm _
      · rw [settle_furnaceLive]
        rfl
      · rw [settle_lineLive]
        rfl
      · rw [settle_heard]
        rfl
  · intro v stale books e whole old
    have on : st.live.state ≠ .off := by rcases bound with h | h | h <;> rw [h] <;> nofun
    obtain ⟨p, fld, plt, row⟩ := taken on
    rw [streamSample_of_bound (s := s.withPorts p fld plt) stream bound, sampleWhileBound_of_other stands
      (by rw [kind]; exact other)] at row
    by_cases live : st.live.state = .live
    · have silence : ({ st with live := st.live.unbased } : Machine.Stream).silence (s.withPorts p fld plt).now = e :=
        silence_of_good last
      have books_iff : s.estimates st.entry ↔ books := ⟨fun h => ⟨live, h⟩, And.right⟩
      rw [formatFaultBound_of_live (s := s.withPorts p fld plt) sound live, staleBase_eq] at row
      have strm := raiseStream_strm ((s.withPorts p fld plt).setStreamLive k st st.live.unbased) k .format
      have streams (j : Fin 48) (other : j ≠ k) : (((s.withPorts p fld plt).setStreamLive k st st.live.unbased).raiseStream k
          .format).stream j = s.stream j := vget_vset_other _ other.symm _
      have bases (a : Account) : (((s.withPorts p fld plt).setStreamLive k st st.live.unbased).raiseStream k
          .format).liveBase a = s.liveBase a := by
        cases a <;> rfl
      have heard : (((s.withPorts p fld plt).setStreamLive k st st.live.unbased).raiseStream k .format).heard = s.heard := rfl
      generalize ((s.withPorts p fld plt).setStreamLive k st st.live.unbased).raiseStream k .format = w
        at row strm streams bases heard
      refine ⟨_, row, ?_, ?_, ?_, fun _ => ?_, fun kd => ?_, ?_, ?_, ?_, fun a other => ?_, fun j other => ?_, ?_⟩
      · rw [settle_stream, recorded_stream, if_pos live]
        have pending : (if books then min (0 + e) (cap48 * 65536 + 65535) else 0) =
            if books then min e (cap48 * 65536 + 65535) else 0 := by rw [Nat.zero_add]
        rw [← pending]
        unfold State.staleLive State.estimateLive
        rw [silence]
        simp only [show (s.withPorts p fld plt).estimates st.entry ↔ books from books_iff]
        rfl
      · rw [settle_strm_isPending, recorded_isPending]
      · rw [settle_strm, recorded_strm, strm]
        rfl
      · rw [settle_strm, recorded_strm, strm]
        rfl
      · rw [settle_liveBase, recorded_liveBase, if_pos rfl]
        refine (estimateBase_energy (s := s) { st with live := st.live.unbased } _ kd).trans ?_
        rw [silence]
        exact if_congr (and_congr books_iff Iff.rfl) rfl rfl
      · rw [settle_liveBase, recorded_liveBase, if_pos rfl]
        refine (estimateBase_credit (s := s) { st with live := st.live.unbased } _).trans ?_
        rw [silence]
        exact if_congr (and_congr books_iff Iff.rfl) rfl rfl
      · rw [settle_liveBase, recorded_liveBase, if_pos rfl]
        refine (estimateBase_estimated (s := s) { st with live := st.live.unbased } _).trans ?_
        rw [silence]
        exact if_congr books_iff rfl rfl
      · rw [settle_liveBase, recorded_liveBase, if_pos rfl]
        rfl
      · rw [settle_liveBase, recorded_liveBase, if_neg other]
        exact bases a
      · rw [settle_stream, recorded_stream_other _ _ _ _ _ _ other]
        exact streams j other
      · rw [settle_heard, recorded_frame]
        exact heard
    · rw [formatFaultBound_of_silent (s := s.withPorts p fld plt) sound live, heldBase_eq] at row
      have idle : ¬books := fun h => live h.1
      refine ⟨_, row, ?_, ?_, ?_, fun h => absurd h live, fun kd => ?_, ?_, ?_, ?_, fun a other => ?_, fun j other => ?_, ?_⟩
      · rw [settle_stream, recorded_stream, if_neg live]
        rfl
      · rw [settle_strm_isPending, recorded_isPending]
      · rw [settle_strm, recorded_strm]
        rfl
      · rw [settle_liveBase, recorded_liveBase, if_pos rfl]
        exact (if_neg fun h => idle h.1).symm
      · rw [settle_liveBase, recorded_liveBase, if_pos rfl]
        exact (if_neg fun h => idle h.1).symm
      · rw [settle_liveBase, recorded_liveBase, if_pos rfl]
        exact (if_neg idle).symm
      · rw [settle_liveBase, recorded_liveBase, if_pos rfl]
        rfl
      · rw [settle_liveBase, recorded_liveBase, if_neg other]
        rfl
      · rw [settle_stream, recorded_stream_other _ _ _ _ _ _ other]
        rfl
      · rw [settle_heard, recorded_frame]
        rfl
end

section
/-! PROOFS. Cuts, bounces and gob-weight values (R71 to R73, R77 to R79). -/

namespace Sys2Proof.Machine

set_option Elab.async false

section
variable {s : State} {l : Fin 8}

/-! ### Weight holds at a cut (R73) -/

/-- A stream in STALE or LOST. -/
abbrev Stream.Silent (st : Stream) : Prop := st.live.state = .stale ∨ st.live.state = .lost

/-- R73: a GOBW stream at a cut. -/
def Stream.atCut (st : Stream) : Stream := if st.Silent then { st with live := st.live.weightHeld } else st

/-- R73: the stream table at a cut of a line with these GOBW streams. -/
def streamsAtCut (ks : List (Fin 48)) (v : Vector (Option Stream) 48) : Vector (Option Stream) 48 :=
  ks.foldl (fun v k => vset v k ((vget v k).map Stream.atCut)) v

theorem holdStream_eq (s : State) (k : Fin 48) :
    s.holdStream k = { s with streams := vset s.streams k ((vget s.streams k).map Stream.atCut) } := by
  have stays : s = { s with streams := vset s.streams k (vget s.streams k) } := by rw [vset_vget]
  unfold State.holdStream
  cases stream : s.stream k with
  | none =>
    rw [show vget s.streams k = none from stream] at stays ⊢
    exact stays
  | some st =>
    rw [show vget s.streams k = some st from stream] at stays ⊢
    dsimp only [Option.map_some]
    unfold Stream.atCut
    by_cases silent : st.Silent
    · rw [if_pos silent, if_pos silent, bump_eq]
      rfl
    · rw [if_neg silent, if_neg silent]
      exact stays

theorem foldl_holdStream (ks : List (Fin 48)) (s : State) :
    ks.foldl State.holdStream s = { s with streams := streamsAtCut ks s.streams } := by
  induction ks generalizing s with
  | nil => rfl
  | cons k ks ih =>
    rw [List.foldl_cons, holdStream_eq, ih]
    rfl

theorem vget_streamsAtCut {ks : List (Fin 48)} (distinct : ks.Nodup) (v : Vector (Option Stream) 48) (k : Fin 48) :
    vget (streamsAtCut ks v) k = if k ∈ ks then (vget v k).map Stream.atCut else vget v k :=
  vget_foldl_vset (fun _ (x : Option Stream) => x.map Stream.atCut) distinct v k

theorem gobStreams_nodup (s : State) (l : Fin 8) : (s.gobStreams l).Nodup := (List.nodup_finRange 48).filter _

theorem mem_gobStreams {k : Fin 48} : k ∈ s.gobStreams l ↔
    ∃ st, s.stream k = some st ∧ st.entry.category = .gobw ∧ st.entry.target = .line l := by
  unfold State.gobStreams
  rw [List.mem_filter]
  cases stream : s.stream k with
  | none => simp
  | some st => simp

theorem anySilent_iff (s : State) (ks : List (Fin 48)) :
    s.anySilent ks = true ↔ ∃ k ∈ ks, ∃ st, s.stream k = some st ∧ st.Silent := by
  unfold State.anySilent
  rw [List.any_eq_true]
  refine exists_congr fun k => and_congr_right fun _ => ?_
  cases stream : s.stream k with
  | none => simp
  | some st => simp

/-- R73: the line's live set at a cut, one hold counted where a stream is silent. -/
def LineLive.cutHeld (x : LineLive) (silent : Bool) : LineLive :=
  { x with weightHolds := if silent then min 4294967295 (x.weightHolds + 1) else x.weightHolds }

theorem cutRequest_eq (s : State) (l : Fin 8) (ks : List (Fin 48)) : s.cutRequest l ks = { s with
    streams := streamsAtCut ks s.streams, lineLive := vset s.lineLive l ((s.lLive l).cutHeld (s.anySilent ks)) } := by
  unfold State.cutRequest LineLive.cutHeld
  rw [foldl_holdStream]
  cases s.anySilent ks with
  | true =>
    dsimp only
    rw [if_pos rfl, bump_eq]
    rfl
  | false =>
    have stays : vset s.lineLive l (s.lLive l) = s.lineLive := vset_vget _ _
    rw [if_neg Bool.false_ne_true, if_neg Bool.false_ne_true]
    show _ = ({ s with streams := _, lineLive := vset s.lineLive l (s.lLive l) } : State)
    rw [stays]

/-! ### Cuts (R77 to R79) -/

theorem LineInput.cutAccepted_iff (x : LineInput) (spacing now : Nat) :
    x.cutAccepted spacing now = true ↔ ∀ u, x.lastCut = some u → u + spacing ≤ now := by
  unfold LineInput.cutAccepted
  cases x.lastCut with
  | none => simp
  | some u => simp

theorem bookCut_eq (sound : s.sound) (i : Option Nat) (ks : List (Fin 48)) : s.bookCut l i ks = { s with
    lineInputs := vset s.lineInputs l { s.lineInput l with prevSet := .current }
    lineLive := vset s.lineLive l (((s.lLive l).bookCut ((s.job l).gobs * (s.job l).weight) (s.lineInput l).diverted i
      (decide ((s.lineInput l).prevSet = .current))).cutHeld (s.anySilent ks))
    streams := streamsAtCut ks s.streams } := by
  have live (x : LineLive) (y : LineInput) : ((s.setLLive l x).setLineInput l y).lLive l = x := vget_vset_same _ _ _
  unfold State.bookCut
  dsimp only
  rw [touch_of_sound sound, cutRequest_eq, live]
  exact congrArg (fun v => { s with
    lineInputs := vset s.lineInputs l { s.lineInput l with prevSet := .current }, lineLive := v
    streams := streamsAtCut ks s.streams }) (vset_vset _ _ _ _)

/-- R79: the live set of a line once its cut is booked, apart from weight holds. -/
def State.cutLive (s : State) (l : Fin 8) : LineLive :=
  (s.lLive l).bookCut ((s.job l).gobs * (s.job l).weight) (s.lineInput l).diverted ((s.lineInput l).cutInterval s.now)
    (decide ((s.lineInput l).prevSet = .current))

/-- R78: the input state of a line after an accepted cut, which lands in the current set where it is booked. -/
def State.cutInput (s : State) (l : Fin 8) : LineInput :=
  { (s.lineInput l).accepted (s.lineCfg l).timeout s.now with
    prevSet := if s.run = .run then .current else (s.lineInput l).prevSet }

theorem cutRise_accepted_run (sound : s.sound) (accepted : (s.lineInput l).cutAccepted (s.lineCfg l).spacing s.now = true)
    (run : s.run = .run) : s.cutRise l = { s with
      lineInputs := vset s.lineInputs l (s.cutInput l)
      lineLive := vset s.lineLive l ((s.cutLive l).cutHeld (s.anySilent (s.gobStreams l)))
      streams := streamsAtCut (s.gobStreams l) s.streams } := by
  have input (x : LineInput) : (s.setLineInput l x).lineInput l = x := vget_vset_same _ _ _
  have timed : s.cutInput l = { (s.lineInput l).accepted (s.lineCfg l).timeout s.now with prevSet := .current } := by
    unfold State.cutInput
    rw [if_pos run]
  have booked : s.cutRise l = (s.setLineInput l ((s.lineInput l).accepted (s.lineCfg l).timeout s.now)).bookCut l
      ((s.lineInput l).cutInterval s.now) (s.gobStreams l) := by
    unfold State.cutRise
    simp only [lineAsRead_of_sound sound, accepted, run, and_self, if_true, touchAll_of_sound sound, touch_of_sound sound,
      State.setLineInput_run]
  rw [booked, bookCut_eq (s := s.setLineInput l _) sound, input, timed]
  exact congrArg (fun v => { s with
    lineInputs := v
    lineLive := vset s.lineLive l ((s.cutLive l).cutHeld (s.anySilent (s.gobStreams l)))
    streams := streamsAtCut (s.gobStreams l) s.streams }) (vset_vset _ _ _ _)

theorem cutRise_accepted_idle (sound : s.sound) (accepted : (s.lineInput l).cutAccepted (s.lineCfg l).spacing s.now = true)
    (idle : s.run ≠ .run) : s.cutRise l = s.setLineInput l (s.cutInput l) := by
  unfold State.cutRise State.cutInput
  simp only [lineAsRead_of_sound sound, accepted, idle, and_false, if_true, if_false, touch_of_sound sound,
    State.setLineInput_run]
  rfl

theorem cutRise_bounced (sound : s.sound) (bounced : ¬(s.lineInput l).cutAccepted (s.lineCfg l).spacing s.now = true) :
    s.cutRise l = s.setLineInput l
      { s.lineInput l with cutBounces := min 4294967295 ((s.lineInput l).cutBounces + 1) } := by
  unfold State.cutRise
  simp only [lineAsRead_of_sound sound, bounced, Bool.false_eq_true, false_and, if_false, touch_of_sound sound, bump_eq]

/-! ### The rows of CUT (R75, R77) -/

section
variable {c : Filter} {u : Nat} (tracked : s.lineTracked l = true) (filter : (s.lineInput l).cut = some c)
  (level : c.level = false) (since : c.since = some u) (held : u + 1 ≤ s.clock.elapsed)
include tracked filter level since held

/-- R75, R77: a due rising edge of CUT flips the filtered level and is judged. -/
theorem cutEdge_of_due : s.cutEdge l =
    (s.setLineInput l { s.lineInput l with cut := some (c.flip (vget s.pins.cut l) s.now) }).cutRise l := by
  unfold State.cutEdge
  rw [if_pos ⟨tracked, (levelDue_of_held filter since held true).trans (by simp [level])⟩, filter]
  rfl

theorem cutEdge_accepted_run (sound : s.sound) (accepted : (s.lineInput l).cutAccepted (s.lineCfg l).spacing s.now = true)
    (run : s.run = .run) : s.cutEdge l = { s with
      lineInputs := vset s.lineInputs l { s.cutInput l with cut := some (c.flip (vget s.pins.cut l) s.now) }
      lineLive := vset s.lineLive l ((s.cutLive l).cutHeld (s.anySilent (s.gobStreams l)))
      streams := streamsAtCut (s.gobStreams l) s.streams } := by
  have input (x : LineInput) : (s.setLineInput l x).lineInput l = x := vget_vset_same _ _ _
  have twice (x y : LineInput) : vset (vset s.lineInputs l x) l y = vset s.lineInputs l y := vset_vset _ _ _ _
  rw [cutEdge_of_due tracked filter level since held]
  generalize cut : some (c.flip (vget s.pins.cut l) s.now) = x
  rw [cutRise_accepted_run (s := s.setLineInput l { s.lineInput l with cut := x }) sound (by rw [input]; exact accepted) run]
  unfold State.cutInput State.cutLive
  rw [input]
  exact congrArg (fun v => { s with
    lineInputs := v
    lineLive := vset s.lineLive l ((s.cutLive l).cutHeld (s.anySilent (s.gobStreams l)))
    streams := streamsAtCut (s.gobStreams l) s.streams }) (twice _ _)

theorem cutEdge_accepted_idle (sound : s.sound) (accepted : (s.lineInput l).cutAccepted (s.lineCfg l).spacing s.now = true)
    (idle : s.run ≠ .run) : s.cutEdge l =
      s.setLineInput l { s.cutInput l with cut := some (c.flip (vget s.pins.cut l) s.now) } := by
  have input (x : LineInput) : (s.setLineInput l x).lineInput l = x := vget_vset_same _ _ _
  have twice (x y : LineInput) : vset (vset s.lineInputs l x) l y = vset s.lineInputs l y := vset_vset _ _ _ _
  rw [cutEdge_of_due tracked filter level since held]
  generalize cut : some (c.flip (vget s.pins.cut l) s.now) = x
  rw [cutRise_accepted_idle (s := s.setLineInput l { s.lineInput l with cut := x }) sound (by rw [input]; exact accepted) idle]
  unfold State.cutInput
  rw [input]
  exact congrArg (fun v => { s with lineInputs := v }) (twice _ _)

theorem cutEdge_bounced (sound : s.sound) (bounced : ¬(s.lineInput l).cutAccepted (s.lineCfg l).spacing s.now = true) :
    s.cutEdge l = s.setLineInput l { s.lineInput l with
      cut := some (c.flip (vget s.pins.cut l) s.now)
      cutBounces := min 4294967295 ((s.lineInput l).cutBounces + 1) } := by
  have input (x : LineInput) : (s.setLineInput l x).lineInput l = x := vget_vset_same _ _ _
  have twice (x y : LineInput) : vset (vset s.lineInputs l x) l y = vset s.lineInputs l y := vset_vset _ _ _ _
  rw [cutEdge_of_due tracked filter level since held]
  generalize cut : some (c.flip (vget s.pins.cut l) s.now) = x
  rw [cutRise_bounced (s := s.setLineInput l { s.lineInput l with cut := x }) sound (by rw [input]; exact bounced), input]
  exact congrArg (fun v => { s with lineInputs := v }) (twice _ _)

/-- R77 to R79: an accepted cut, in RUN and out of it. -/
theorem exec_cutEdge_accepted (sound : s.sound)
    (spaced : ∀ x, (s.lineInput l).lastCut = some x → x + (s.lineCfg l).spacing ≤ s.clock.elapsed) :
    ∃ t, exec (.cutEdge l) s = .next t ∧
      t.lineInput l = { s.cutInput l with cut := some (c.flip (vget s.pins.cut l) s.now) } ∧
      t.lLive l = (if s.run = .run then (s.cutLive l).cutHeld (s.anySilent (s.gobStreams l)) else s.lLive l) ∧
      t.streams = (if s.run = .run then streamsAtCut (s.gobStreams l) s.streams else s.streams) ∧
      (∀ i, i ≠ l → t.lLive i = s.lLive i ∧ t.lineInput i = s.lineInput i) ∧
      t.furnaceLive = s.furnaceLive ∧ t.jobs = s.jobs := by
  have accepted := ((s.lineInput l).cutAccepted_iff (s.lineCfg l).spacing s.now).2 spaced
  by_cases run : s.run = .run
  · rw [if_pos run, if_pos run]
    refine ⟨_, next_settle (cutEdge_accepted_run tracked filter level since held sound accepted run), ?_, ?_,
      settle_streams _, fun i other => ⟨?_, ?_⟩, settle_furnaceLive _, settle_jobs _⟩
    · exact (settle_lineInput _ l).trans (vget_vset_same _ _ _)
    · exact (settle_lLive _ l).trans (vget_vset_same _ _ _)
    · exact (settle_lLive _ i).trans (vget_vset_other _ other.symm _)
    · exact (settle_lineInput _ i).trans (vget_vset_other _ other.symm _)
  · rw [if_neg run, if_neg run]
    refine ⟨_, next_settle (cutEdge_accepted_idle tracked filter level since held sound accepted run), ?_, settle_lLive _ l,
      settle_streams _, fun i other => ⟨settle_lLive _ i, ?_⟩, settle_furnaceLive _, settle_jobs _⟩
    · exact (settle_lineInput _ l).trans (vget_vset_same _ _ _)
    · exact (settle_lineInput _ i).trans (vget_vset_other _ other.symm _)

/-- R77: a bounce. -/
theorem exec_cutEdge_bounced (sound : s.sound) {x : Nat} (last : (s.lineInput l).lastCut = some x)
    (early : s.clock.elapsed < x + (s.lineCfg l).spacing) : ∃ t, exec (.cutEdge l) s = .next t ∧
      t.lineInput l = { s.lineInput l with
        cut := some (c.flip (vget s.pins.cut l) s.now)
        cutBounces := min 4294967295 ((s.lineInput l).cutBounces + 1) } ∧
      t.lineLive = s.lineLive ∧ t.furnaceLive = s.furnaceLive ∧ ∀ i, i ≠ l → t.lineInput i = s.lineInput i := by
  have bounced : ¬(s.lineInput l).cutAccepted (s.lineCfg l).spacing s.now = true := fun h =>
    Nat.not_le_of_lt early (((s.lineInput l).cutAccepted_iff _ _).1 h x last)
  exact ⟨_, next_settle (cutEdge_bounced tracked filter level since held sound bounced),
    (settle_lineInput _ l).trans (vget_vset_same _ _ _), settle_lineLive _, settle_furnaceLive _,
    fun i other => (settle_lineInput _ i).trans (vget_vset_other _ other.symm _)⟩

end

/-! ### What a cut books (R79) -/

theorem diverted_eq (x : LineInput) : x.diverted = x.div.any fun f => f.level := by
  unfold LineInput.diverted
  cases x.div <;> rfl

theorem bookCut_spec (x : LineLive) (mass : Nat) (away : Bool) (i : Option Nat) (same : Bool) :
    (x.bookCut mass away i same).cuts = min 4294967295 (x.cuts + 1) ∧
    (x.bookCut mass away i same).divertedCuts = (if away then min 4294967295 (x.divertedCuts + 1) else x.divertedCuts) ∧
    (x.bookCut mass away i same).formed = (if away then x.formed else x.formed.add mass) ∧
    (x.bookCut mass away i same).diverted = (if away then x.diverted.add mass else x.diverted) ∧
    (x.bookCut mass away i same).base.energy = x.base.energy ∧
    (x.bookCut mass away i same).weightHolds = x.weightHolds := by
  unfold LineLive.bookCut
  rw [bump_eq, bump_eq]
  cases away <;> exact ⟨rfl, rfl, rfl, rfl, rfl, rfl⟩

end

end Sys2Proof.Machine

open Sys2Proof Sys2Proof.Machine

/-- Settles O35: a cut at the spacing (`exec_cutEdge_accepted`), a bounce (`exec_cutEdge_bounced`), and a gob value at its
stream (`gobTaken_of_fits`, `gobTaken_of_held`). -/
theorem cutIsAcceptedOrCountedAsBounce : Obligations.CutIsAcceptedOrCountedAsBounce := by
  refine ⟨?_, ?_, ?_, ?_⟩
  · intro l s c u sound tracked unheld filter level since held spaced interval mass diverted same
    obtain ⟨t, row, input, live, streams, others, furnaces, -⟩ :=
      exec_cutEdge_accepted tracked filter level since held sound spaced
    have quiet : s.anySilent (s.gobStreams l) = false := by rw [unheld]; rfl
    have untouched : streamsAtCut (s.gobStreams l) s.streams = s.streams := by rw [unheld]; rfl
    have booked : (s.cutLive l).cutHeld false = (s.lLive l).bookCut mass diverted interval (decide same) := by
      unfold State.cutLive
      rw [diverted_eq]
      rfl
    rw [untouched, ite_self] at streams
    rw [quiet, booked] at live
    obtain ⟨cuts, divertedCuts, formed, away, energy, -⟩ := bookCut_spec (s.lLive l) mass diverted interval (decide same)
    refine ⟨t, row, by rw [input]; rfl, by rw [input]; rfl, by rw [input]; rfl, by rw [input]; rfl,
      fun idle => live.trans (if_neg idle), fun run => ?_, others, furnaces, streams⟩
    rw [live, if_pos run]
    refine ⟨cuts, divertedCuts, formed, away, ?_, energy⟩
    show (match interval with
      | some i => if decide same = true then enterInterval i (s.lLive l).cutIntervals else (s.lLive l).cutIntervals
      | none => (s.lLive l).cutIntervals) = _
    cases interval with
    | none => rfl
    | some i =>
      cases decide same with
      | false => rfl
      | true => cases (s.lLive l).cutIntervals <;> rfl
  · intro l s c u x sound tracked filter level since held last early
    obtain ⟨t, row, input, lives⟩ := exec_cutEdge_bounced tracked filter level since held sound last early
    exact ⟨t, row, by rw [input], lives⟩
  · intro l s c u sound run tracked filter level since held spaced silent
    obtain ⟨t, row, -, live, streams, others, furnaces, jobs⟩ :=
      exec_cutEdge_accepted tracked filter level since held sound spaced
    rw [if_pos run] at live streams
    have silent_iff (k : Fin 48) (st : Machine.Stream) (stream : s.stream k = some st) :
        silent k ↔ k ∈ s.gobStreams l ∧ st.Silent := by
      rw [mem_gobStreams]
      constructor
      · rintro ⟨st', stream', gobw, target, quiet⟩
        obtain rfl := Option.some.inj (stream.symm.trans stream')
        exact ⟨⟨st, stream, gobw, target⟩, quiet⟩
      · rintro ⟨⟨st', stream', gobw, target⟩, quiet⟩
        obtain rfl := Option.some.inj (stream.symm.trans stream')
        exact ⟨st, stream, gobw, target, quiet⟩
    have any_iff : s.anySilent (s.gobStreams l) = true ↔ ∃ k, silent k := by
      rw [anySilent_iff]
      refine exists_congr fun k => ?_
      constructor
      · rintro ⟨gob, st, stream, quiet⟩
        exact (silent_iff k st stream).2 ⟨gob, quiet⟩
      · rintro ⟨st, stream, gobw, target, quiet⟩
        exact ⟨mem_gobStreams.2 ⟨st, stream, gobw, target⟩, st, stream, quiet⟩
    have after (k : Fin 48) : t.stream k =
        if k ∈ s.gobStreams l then (s.stream k).map Machine.Stream.atCut else s.stream k :=
      (congrArg (fun v => vget v k) streams).trans (vget_streamsAtCut (gobStreams_nodup s l) _ k)
    obtain ⟨cuts, -, formed, away, -, holds⟩ := bookCut_spec (s.lLive l) ((s.job l).gobs * (s.job l).weight)
      (s.lineInput l).diverted ((s.lineInput l).cutInterval s.now) (decide ((s.lineInput l).prevSet = .current))
    refine ⟨t, row, fun k loud => ?_, fun k st quiet stream => ?_, fun any => ?_, fun none => ?_, ?_, ?_, jobs,
      fun i other => (others i other).1, furnaces⟩
    · rw [after]
      cases stream : s.stream k with
      | none => rw [Option.map_none, ite_self]
      | some st =>
        split
        next gob =>
          exact congrArg some (if_neg fun quiet => loud ((silent_iff k st stream).2 ⟨gob, quiet⟩))
        next => rfl
    · obtain ⟨gob, quiet⟩ := (silent_iff k st stream).1 quiet
      rw [after, if_pos gob, stream]
      exact congrArg some (if_pos quiet)
    · rw [live, any_iff.2 any]
      exact congrArg (fun n => min 4294967295 (n + 1)) holds
    · rw [live, Bool.eq_false_iff.2 fun h => (any_iff.1 h).elim none]
      exact holds
    · rw [live]
      exact cuts
    · rw [live, ← diverted_eq]
      unfold LineLive.pulled
      show min ((s.cutLive l).formed.grams + (s.cutLive l).diverted.grams) cap48 = _
      unfold State.cutLive
      rw [formed, away]
      cases (s.lineInput l).diverted <;> rfl
  · intro dest src b hi lo begun s k st l base up code run sound found stream bound use stands gobw target n fits
    have sample : sampleOf (b.toNat / 16) [hi, lo] = ⟨some .value, false, n, 0⟩ := by
      rw [code]
      simp [sampleOf, beNat, n]
    obtain ⟨p, fld, plt, row⟩ := exec_sample_in_use (dest := dest) (value := [hi, lo]) (begun := begun) up (by simp) run sound
      found stream bound stands (by rw [sample]) use
    have taken : (s.withPorts p fld plt).handOver k st .value ⟨some .value, false, n, 0⟩ = (s.withPorts p fld plt).gobTaken k st
        { (st.live.rebase .value n 0).good st.entry s.now with pending := 0 } n := by
      unfold State.handOver State.gobTaken
      rw [if_neg fun counts => (counting_iff _).1 counts gobw, if_pos gobw]
      rfl
    rw [sample, taken] at row
    obtain ⟨own, -, lines, others, furnaces, -⟩ := gobTaken_spec (s := s.withPorts p fld plt) sound k st
      { (st.live.rebase .value n 0).good st.entry s.now with pending := 0 } n
    have held_iff (i : Fin 8) : (s.withPorts p fld plt).heldBack st.entry n i ↔ i = l ∧ ¬fits := by
      constructor
      · rintro ⟨-, at_i, outside⟩
        obtain rfl := Account.line.inj (target.symm.trans at_i)
        exact ⟨rfl, outside⟩
      · rintro ⟨rfl, outside⟩
        exact ⟨gobw, target, outside⟩
    have any_iff : (∃ i, (s.withPorts p fld plt).heldBack st.entry n i) ↔ ¬fits :=
      ⟨fun ⟨i, h⟩ => ((held_iff i).1 h).2, fun h => ⟨l, (held_iff l).2 ⟨rfl, h⟩⟩⟩
    refine ⟨_, row, (settle_stream _ k).trans (own.trans ?_), (settle_jobs _).trans ?_, (settle_lLive _ l).trans ((lines l).trans ?_),
      fun i other => (settle_lLive _ i).trans ((lines i).trans ?_), (settle_furnaceLive _).trans furnaces,
      fun j other => (settle_stream _ j).trans (others j other)⟩
    · simp only [any_iff, ite_not]
      rfl
    · by_cases inside : fits
      · rw [gobTaken_of_fits (s := s.withPorts p fld plt) sound _ gobw target inside, if_pos inside]
        rfl
      · rw [gobTaken_of_held (s := s.withPorts p fld plt) sound _ ((held_iff l).2 ⟨rfl, inside⟩), if_neg inside]
        rfl
    · exact if_congr (and_congr_left' ((held_iff l).trans (and_iff_right rfl))) rfl rfl
    · exact if_neg fun h => other ((held_iff i).1 h.1).1
end

section
/-! PROOFS. Reversals, blanking and the streams that wait on its end (R40, R62, R88 to R90). -/

namespace Sys2Proof.Machine

set_option Elab.async false

/-! ### Amounts booked one after the other -/

/-- R9: a figure after several amounts are booked to it in RUN. -/
def bookedSum (run : Bool) (l : List Nat) (x : Nat) : Nat := if run = true ∧ l ≠ [] then min cap48 (x + l.sum) else x

theorem bookedSum_append_one (l : List Nat) (a x : Nat) : bookedSum true (l ++ [a]) x = min cap48 (bookedSum true l x + a) := by
  unfold bookedSum
  rw [if_pos ⟨rfl, by simp⟩, List.sum_append, List.sum_singleton]
  split
  · omega
  next h =>
    have none : l = [] := not_not.1 fun some => h ⟨rfl, some⟩
    rw [none, List.sum_nil, Nat.zero_add]

theorem bookedSum_idle (l : List Nat) (x : Nat) : bookedSum false l x = x := if_neg fun h => nomatch h.1

section
variable {s t : State} {f : Fin 4} {ks : List (Fin 48)} {k : Fin 48} {st : Stream}

/-! ### The streams that wait on the end of a blanking (R40) -/

/-- R40: a LIVE reversal-sensitive stream of the furnace with its deferral mark set. -/
def Stream.waitsOn (st : Stream) (f : Fin 4) : Bool := decide (st.live.state = .live ∧ st.live.deferral = true ∧
  st.entry.sensitive = true ∧ (st.entry.category = .energy ∨ st.entry.category = .credit) ∧ st.entry.target = .furnace f)

theorem blankingFurnace_iff (e : StreamEntry) (f : Fin 4) : e.blankingFurnace = some f ↔
    e.sensitive = true ∧ (e.category = .energy ∨ e.category = .credit) ∧ e.target = .furnace f := by
  unfold StreamEntry.blankingFurnace
  rw [← estimated_iff]
  by_cases heeds : e.sensitive = true ∧ e.category.estimated = true
  · rw [if_pos heeds]
    obtain ⟨sensitive, energetic⟩ := heeds
    cases e.target with
    | furnace g => simp [sensitive, energetic]
    | line l => simp
  · rw [if_neg heeds]
    exact ⟨nofun, fun h => absurd ⟨h.1, h.2.1⟩ heeds⟩

theorem deferredOn_eq (s : State) (f : Fin 4) :
    s.deferredOn f = (List.finRange 48).filter fun k => (s.stream k).any (·.waitsOn f) := by
  unfold State.deferredOn
  refine List.filter_congr fun k _ => ?_
  cases stream : s.stream k with
  | none => rfl
  | some st =>
    dsimp only [Option.any_some]
    unfold Stream.waitsOn
    rw [Bool.eq_iff_iff]
    simp only [Bool.and_eq_true, decide_eq_true_eq, blankingFurnace_iff]
    tauto

theorem mem_deferredOn : k ∈ s.deferredOn f ↔ ∃ st, s.stream k = some st ∧ st.waitsOn f = true := by
  rw [deferredOn_eq, List.mem_filter, Option.any_eq_true]
  exact and_iff_right (List.mem_finRange k)

/-- R62: what the streams of a list that meet a condition book, in whole kilojoules. -/
def State.releasedAmounts (s : State) (p : Stream → Bool) (ks : List (Fin 48)) : List Nat :=
  ks.filterMap fun k => ((s.stream k).filter p).map fun st => st.estimateWhole (st.silence s.now) / 65536

/-- R40, R62: the state `t` is `s` once the streams `ks` of furnace `f` have entered STALE. -/
structure State.Released (s t : State) (f : Fin 4) (ks : List (Fin 48)) : Prop where
  frame : t = { s with furnaceLive := t.furnaceLive, streams := t.streams, attention := t.attention }
  stream k : t.stream k =
    if k ∈ ks then (s.stream k).map fun st => { st with live := s.staleLive st } else s.stream k
  strm k : vget t.attention.strm k =
    if k ∈ ks then (vget s.attention.strm k).add .stale else vget s.attention.strm k
  raised : ks ≠ [] → t.attention.isPending .strm = true
  other i : i ≠ f → t.fLive i = s.fLive i
  rest : t.fLive f = { s.fLive f with base := (t.fLive f).base }
  idle : s.run ≠ .run → t.furnaceLive = s.furnaceLive
  energy kd : (t.fLive f).base.energy.get kd = bookedSum (decide (s.run = .run))
    (s.releasedAmounts (fun st => decide (st.entry.category = .energy ∧ st.entry.kind = kd)) ks)
    ((s.fLive f).base.energy.get kd)
  credit : (t.fLive f).base.credit = bookedSum (decide (s.run = .run))
    (s.releasedAmounts (fun st => decide (st.entry.category = .credit)) ks) (s.fLive f).base.credit
  estimated : (t.fLive f).base.estimated = bookedSum (decide (s.run = .run))
    (s.releasedAmounts (fun _ => true) ks) (s.fLive f).base.estimated
  correction : (t.fLive f).base.correction = (s.fLive f).base.correction
  held k : vget (t.fLive f).base.held k = (vget (s.fLive f).base.held k || decide (s.run = .run) && decide (k ∈ ks))

theorem State.Released.nil (s : State) (f : Fin 4) : s.Released s f [] where
  frame := rfl
  stream k := (if_neg List.not_mem_nil).symm
  strm k := (if_neg List.not_mem_nil).symm
  raised h := absurd rfl h
  other _ _ := rfl
  rest := rfl
  idle _ := rfl
  energy _ := (if_neg fun h => h.2 rfl).symm
  credit := (if_neg fun h => h.2 rfl).symm
  estimated := (if_neg fun h => h.2 rfl).symm
  correction := rfl
  held k := by simp

/-- A figure after one more stream of the list, which books to it where it meets the condition. -/
theorem bookedSum_releasedAmounts (stream : s.stream k = some st) (p : Stream → Bool) (x : Nat) :
    bookedSum (decide (s.run = .run)) (s.releasedAmounts p (ks ++ [k])) x =
      if s.run = .run ∧ p st = true then
        min cap48 (bookedSum (decide (s.run = .run)) (s.releasedAmounts p ks) x + st.estimateWhole (st.silence s.now) / 65536)
      else bookedSum (decide (s.run = .run)) (s.releasedAmounts p ks) x := by
  have last : s.releasedAmounts p (ks ++ [k]) = s.releasedAmounts p ks ++
      if p st = true then [st.estimateWhole (st.silence s.now) / 65536] else [] := by
    unfold State.releasedAmounts
    rw [List.filterMap_append]
    cases meets : p st <;> simp [stream, meets]
  rw [last]
  by_cases run : s.run = .run
  · rw [decide_eq_true run]
    by_cases meets : p st = true
    · rw [if_pos meets, if_pos ⟨run, meets⟩, bookedSum_append_one]
    · rw [if_neg meets, if_neg fun h => meets h.2, List.append_nil]
  · rw [decide_eq_false run, bookedSum_idle, bookedSum_idle, if_neg fun h => run h.1]

/-- R40, R62: one more stream of the furnace enters STALE. -/
theorem State.Released.enterStale (h : s.Released t f ks) (sound : s.sound) (fresh : k ∉ ks) (stream : s.stream k = some st)
    (waits : st.waitsOn f = true) : s.Released (t.enterStale k) f (ks ++ [k]) := by
  obtain ⟨-, -, -, energetic, target⟩ := of_decide_eq_true waits
  have stands : t.stream k = some st := (h.stream k).trans ((if_neg fresh).trans stream)
  have soundT : t.sound := by rw [h.frame]; exact sound
  have run : t.run = s.run := (congrArg State.run h.frame :)
  have now : t.now = s.now := (congrArg State.now h.frame :)
  have live : t.staleLive st = s.staleLive st := by
    unfold State.staleLive State.estimateLive State.estimates
    rw [run, now]
  have estimates : t.estimates st.entry ↔ s.run = .run := by
    unfold State.estimates
    rw [run]
    exact and_iff_left energetic
  rw [enterStale_eq_recorded soundT stands]
  have base : ((t.recorded k st (t.staleBase k st) (t.staleLive st) .stale).fLive f).base = t.staleBase k st := by
    exact (recorded_liveBase t k st _ _ .stale (.furnace f)).trans (if_pos target.symm)
  have old : t.liveBase st.entry.target = (t.fLive f).base := by rw [target]; rfl
  have member (j : Fin 48) (other : j ≠ k) : j ∈ ks ++ [k] ↔ j ∈ ks := by simp [other]
  have joined : k ∈ ks ++ [k] := by simp
  constructor
  case frame =>
    have lines : (t.recorded k st (t.staleBase k st) (t.staleLive st) .stale).lineLive = t.lineLive :=
      recorded_lineLive_of_furnace target ..
    have step := recorded_frame t k st (t.staleBase k st) (t.staleLive st) .stale
    generalize t.recorded k st (t.staleBase k st) (t.staleLive st) .stale = u at lines step ⊢
    have kept : u = { t with furnaceLive := u.furnaceLive, streams := u.streams, attention := u.attention } := by
      rw [step] at lines ⊢
      rw [show (t.written k st (t.staleBase k st) (t.staleLive st)).lineLive = t.lineLive from lines]
    rw [h.frame] at kept
    exact kept
  case stream =>
    intro j
    by_cases same : j = k
    · rw [same, recorded_stream, if_pos joined, stream, live]
      rfl
    · rw [recorded_stream_other _ _ _ _ _ _ same, h.stream]
      exact if_congr (member j same).symm rfl rfl
  case strm =>
    intro j
    by_cases same : j = k
    · rw [same, recorded_strm, if_pos joined, h.strm, if_neg fresh]
    · rw [recorded_frame]
      refine (vget_vset_other _ (Ne.symm same) _).trans ((h.strm j).trans ?_)
      exact if_congr (member j same).symm rfl rfl
  case raised => exact fun _ => recorded_isPending ..
  case other =>
    intro i other
    have kept : ((t.recorded k st (t.staleBase k st) (t.staleLive st) .stale).fLive i).base = (t.fLive i).base :=
      (recorded_liveBase t k st _ _ .stale (.furnace i)).trans
        (if_neg fun same => other (Account.furnace.inj (same.trans target)))
    rw [recorded_fLive, kept]
    exact h.other i other
  case rest =>
    rw [recorded_fLive, h.rest]
  case idle =>
    intro still
    have still' : ¬t.run = .run := by rw [run]; exact still
    refine (recorded_lives_of_same ?_ k _ _).trans (h.idle still)
    unfold State.staleBase State.heldBase State.estimateBase
    rw [if_neg still', if_neg fun books => still' books.1]
  case energy =>
    intro kd
    rw [base, staleBase_eq, bookedSum_releasedAmounts stream, ← h.energy]
    refine (estimateBase_energy st _ kd).trans ?_
    rw [old, now]
    refine if_congr (and_congr estimates ?_) rfl rfl
    rw [decide_eq_true_eq, eq_comm (a := kd)]
  case credit =>
    rw [base, staleBase_eq, bookedSum_releasedAmounts stream, ← h.credit]
    refine (estimateBase_credit st _).trans ?_
    rw [old, now]
    exact if_congr (and_congr estimates decide_eq_true_iff.symm) rfl rfl
  case estimated =>
    rw [base, staleBase_eq, bookedSum_releasedAmounts stream, ← h.estimated]
    refine (estimateBase_estimated st _).trans ?_
    rw [old, now]
    exact if_congr (estimates.trans (and_iff_left rfl).symm) rfl rfl
  case correction =>
    rw [base, staleBase_eq]
    exact (estimateBase_rest st _).1.trans ((congrArg LiveBase.correction old).trans h.correction)
  case held =>
    intro j
    rw [base, staleBase_eq, old, run]
    dsimp only
    by_cases running : s.run = .run
    · rw [if_pos running, vget_vset, decide_eq_true running, Bool.true_and]
      by_cases same : k = j
      · subst same
        rw [if_pos rfl, decide_eq_true joined, Bool.or_true]
      · rw [if_neg same, h.held, decide_eq_true running, Bool.true_and, decide_eq_decide.2 (member j (Ne.symm same))]
    · rw [if_neg running, h.held, decide_eq_false running, Bool.false_and, Bool.false_and]

theorem foldl_enterStale (sound : s.sound) (ks : List (Fin 48)) (distinct : ks.Nodup)
    (waits : ∀ k ∈ ks, ∃ st, s.stream k = some st ∧ st.waitsOn f = true) :
    s.Released (ks.foldl State.enterStale s) f ks := by
  induction ks using List.reverseRecOn with
  | nil => exact State.Released.nil s f
  | append_singleton ks k ih =>
    obtain ⟨before, -, apart⟩ := List.nodup_append.1 distinct
    obtain ⟨st, stream, waiting⟩ := waits k (by simp)
    have fresh : k ∉ ks := fun old => apart k old k (by simp) rfl
    rw [List.foldl_append]
    exact (ih before fun j old => waits j (by simp [old])).enterStale sound fresh stream waiting

/-- R90, R40: the end of a furnace's blanking. -/
theorem finishBlanking_released (sound : s.sound) (f : Fin 4) :
    (s.setFurnaceInput f { s.furnaceInput f with blankingEnd := none }).Released (s.finishBlanking f) f (s.deferredOn f) := by
  unfold State.finishBlanking
  dsimp only
  have clear : (s.setFurnaceInput f { s.furnaceInput f with blankingEnd := none }).sound := sound
  rw [touchAll_of_sound clear]
  refine foldl_enterStale clear _ ?_ fun k member => ?_
  · rw [deferredOn_eq]
    exact (List.nodup_finRange 48).filter _
  · exact mem_deferredOn.1 member

theorem releasedAmounts_deferredOn (s : State) (f : Fin 4) (p : Stream → Bool) : s.releasedAmounts p (s.deferredOn f) =
    (List.finRange 48).filterMap fun k => ((s.stream k).filter fun st => st.waitsOn f && p st).map fun st =>
      st.estimateWhole (st.silence s.now) / 65536 := by
  unfold State.releasedAmounts
  rw [deferredOn_eq, List.filterMap_filter]
  refine List.filterMap_congr fun k _ => ?_
  cases stream : s.stream k with
  | none => rfl
  | some st => cases waits : st.waitsOn f <;> simp [waits, Option.filter_some]

/-! ### Reversals (R88, R89) -/

/-- R88: a reversal counted in RUN, with its interval where there is one. -/
def State.reversed (s : State) (f : Fin 4) (i : Option Nat) : State :=
  if s.run = .run then s.setFLive f { s.fLive f with
    reversals := min 4294967295 ((s.fLive f).reversals + 1), lastReversal := i.getD (s.fLive f).lastReversal }
  else s

theorem finishBlanking_sound (sound : s.sound) (f : Fin 4) : (s.finishBlanking f).sound := by
  rw [(finishBlanking_released sound f).frame]
  exact sound

theorem reversed_of_read (sound : s.sound) (f : Fin 4) (i : Option Nat) : (if s.run = .run then
    (s.touch (.live (.furnace f))).setFLive f { (s.touch (.live (.furnace f))).fLive f with
      reversals := bump ((s.touch (.live (.furnace f))).fLive f).reversals
      lastReversal := i.getD ((s.touch (.live (.furnace f))).fLive f).lastReversal }
    else s) = s.reversed f i := by
  rw [touch_of_sound sound, bump_eq]
  rfl

theorem reverse_eq (sound : s.sound) (f : Fin 4) : s.reverse f =
    (if (s.furnaceCfg f).blanking = 0 then
      if (s.furnaceInput f).blankingEnd.isSome then
        (s.setFurnaceInput f { s.furnaceInput f with lastReversal := some s.now }).finishBlanking f
      else s.setFurnaceInput f { s.furnaceInput f with lastReversal := some s.now }
    else s.setFurnaceInput f { s.furnaceInput f with
      lastReversal := some s.now, blankingEnd := some (s.now + (s.furnaceCfg f).blanking * 1000) }).reversed f
      ((s.furnaceInput f).interval s.now) := by
  have timed (x : FurnaceInput) : (s.setFurnaceInput f x).furnaceInput f = x := vget_vset_same _ _ _
  have ends : (decide ((s.furnaceCfg f).blanking = 0) && s.inBlanking f) =
      (decide ((s.furnaceCfg f).blanking = 0) && (s.furnaceInput f).blankingEnd.isSome) := rfl
  unfold State.reverse
  rw [furnaceAsRead_of_sound sound, ends]
  simp only [touchAll_of_sound sound, touch_of_sound sound, ite_self]
  have cfg (x : FurnaceInput) : (s.setFurnaceInput f x).furnaceCfg f = s.furnaceCfg f := rfl
  have twice (x y : FurnaceInput) : (s.setFurnaceInput f x).setFurnaceInput f y = s.setFurnaceInput f y :=
    congrArg (fun v => { s with furnaceInputs := v }) (vset_vset _ _ _ _)
  rw [cfg, timed, twice]
  by_cases zero : (s.furnaceCfg f).blanking = 0
  · rw [if_pos zero, if_neg (show ¬0 < (s.furnaceCfg f).blanking by omega), decide_eq_true zero, Bool.true_and]
    cases (s.furnaceInput f).blankingEnd.isSome with
    | true => exact reversed_of_read (finishBlanking_sound (s := s.setFurnaceInput f _) sound f) f _
    | false => exact reversed_of_read (s := s.setFurnaceInput f _) sound f _
  · rw [if_neg zero, if_pos (show 0 < (s.furnaceCfg f).blanking by omega)]
    exact reversed_of_read (s := s.setFurnaceInput f _) sound f _

section
variable (w : State) (f : Fin 4) (i : Option Nat)

theorem reversed_frame : w.reversed f i = { w with furnaceLive := (w.reversed f i).furnaceLive } := by
  unfold State.reversed
  split <;> rfl

theorem reversed_fLive : (w.reversed f i).fLive f = if w.run = .run then { w.fLive f with
    reversals := min 4294967295 ((w.fLive f).reversals + 1), lastReversal := i.getD (w.fLive f).lastReversal }
    else w.fLive f := by
  unfold State.reversed
  split
  · exact vget_vset_same _ _ _
  · rfl

theorem reversed_fLive_other {j : Fin 4} (other : j ≠ f) : (w.reversed f i).fLive j = w.fLive j := by
  unfold State.reversed
  split
  · exact vget_vset_other _ other.symm _
  · rfl

end

/-- R88 to R90: a due level change of REV. Where it lifts a blanking the waiting streams have entered STALE. -/
theorem revEdge_of_due (sound : s.sound) {c : Filter} {u : Nat} (tracked : s.furnaceTracked f = true)
    (filter : (s.furnaceInput f).rev = some c) (since : c.since = some u) (held : u + 100 ≤ s.clock.elapsed) :
    ∃ w y, s.revEdge f = w.reversed f ((s.furnaceInput f).interval s.now) ∧
      y.lastReversal = some s.clock.elapsed ∧
      y.blankingEnd = (if (s.furnaceCfg f).blanking = 0 then none
        else some (s.clock.elapsed + (s.furnaceCfg f).blanking * 1000)) ∧
      if (s.furnaceCfg f).blanking = 0 ∧ (s.furnaceInput f).blankingEnd.isSome then
        (s.setFurnaceInput f y).Released w f (s.deferredOn f)
      else w = s.setFurnaceInput f y := by
  have timed (x : FurnaceInput) : (s.setFurnaceInput f x).furnaceInput f = x := vget_vset_same _ _ _
  have twice (x y : FurnaceInput) : (s.setFurnaceInput f x).setFurnaceInput f y = s.setFurnaceInput f y :=
    congrArg (fun v => { s with furnaceInputs := v }) (vset_vset _ _ _ _)
  have cfg (x : FurnaceInput) : (s.setFurnaceInput f x).furnaceCfg f = s.furnaceCfg f := rfl
  have edge : s.revEdge f =
      (s.setFurnaceInput f { s.furnaceInput f with rev := some (c.flip (vget s.pins.rev f) s.now) }).reverse f := by
    unfold State.revEdge
    rw [if_pos ⟨tracked, levelDue_or_of_held filter since held⟩, filter]
    rfl
  rw [edge]
  generalize some (c.flip (vget s.pins.rev f) s.now) = rev
  rw [reverse_eq (s := s.setFurnaceInput f _) sound, timed, cfg, twice, twice]
  refine ⟨_, { s.furnaceInput f with
    rev := rev, lastReversal := some s.now
    blankingEnd := if (s.furnaceCfg f).blanking = 0 then none else some (s.now + (s.furnaceCfg f).blanking * 1000) },
    rfl, rfl, rfl, ?_⟩
  by_cases zero : (s.furnaceCfg f).blanking = 0
  · by_cases blanking : (s.furnaceInput f).blankingEnd.isSome = true
    · rw [if_pos ⟨zero, blanking⟩, if_pos zero, if_pos zero, if_pos blanking]
      have released := finishBlanking_released (s := s.setFurnaceInput f
        { s.furnaceInput f with rev := rev, lastReversal := some s.now }) sound f
      rw [timed, twice] at released
      exact released
    · rw [if_neg fun h => blanking h.2, if_pos zero, if_pos zero, if_neg blanking]
      have none : (s.furnaceInput f).blankingEnd = none := by simpa using blanking
      exact congrArg (fun b => s.setFurnaceInput f ⟨rev, some s.now, b⟩) none
  · rw [if_neg fun h => zero h.1, if_neg zero, if_neg zero]
    rfl

end

end Sys2Proof.Machine

open Sys2Proof Sys2Proof.Machine

/-- Settles O39: the streams that wait enter STALE one after the other (`foldl_enterStale`), and the reversal is counted. -/
theorem blankingStartsAndEnds : Obligations.BlankingStartsAndEnds := by
  intro f s sound now old waits gap whole released booked ends others
  have ended (x : FurnaceInput) (w u : State) (h : (s.setFurnaceInput f x).Released w f (s.deferredOn f))
      (streams : u.streams = w.streams) (pending : u.attention.isPending .strm = w.attention.isPending .strm)
      (strm : u.attention.strm = w.attention.strm) (base : (u.fLive f).base = (w.fLive f).base) : ends u := by
    have figures (p : Machine.Stream → Bool) (y : Nat) : bookedSum (decide (s.run = .run))
        ((s.setFurnaceInput f x).releasedAmounts p (s.deferredOn f)) y = booked p y := by
      have amounts := releasedAmounts_deferredOn (s.setFurnaceInput f x) f p
      rw [show (s.setFurnaceInput f x).releasedAmounts p (s.deferredOn f) = _ from amounts]
      exact if_congr (and_congr decide_eq_true_iff Iff.rfl) rfl rfl
    have stale (st : Machine.Stream) (waiting : waits st = true) : (s.setFurnaceInput f x).staleLive st = released st := by
      obtain ⟨-, -, -, energetic, -⟩ := of_decide_eq_true waiting
      have estimates : (s.setFurnaceInput f x).estimates st.entry ↔ s.run = .run := and_iff_left energetic
      unfold State.staleLive State.estimateLive
      simp only [estimates]
      rfl
    refine ⟨fun k st stream waiting => ?_, fun k none => ?_, fun kd => ?_, ?_, ?_, ?_, fun k => ?_⟩
    · have member : k ∈ s.deferredOn f := mem_deferredOn.2 ⟨st, stream, waiting⟩
      refine ⟨?_, pending.trans (h.raised (List.ne_nil_of_mem member)), ?_⟩
      · rw [show u.stream k = w.stream k from congrArg (fun v => vget v k) streams, h.stream, if_pos member,
          show (s.setFurnaceInput f x).stream k = some st from stream, Option.map_some, stale st waiting]
      · rw [strm, h.strm, if_pos member]
        rfl
    · have stranger : k ∉ s.deferredOn f := fun member => by
        obtain ⟨st, stream, waiting⟩ := mem_deferredOn.1 member
        exact Bool.false_ne_true ((none st stream).symm.trans waiting)
      refine ⟨?_, ?_⟩
      · rw [show u.stream k = w.stream k from congrArg (fun v => vget v k) streams, h.stream, if_neg stranger]
        rfl
      · rw [strm, h.strm, if_neg stranger]
        rfl
    · rw [base, h.energy]
      exact figures _ _
    · rw [base, h.credit]
      exact figures _ _
    · rw [base, h.estimated]
      exact figures _ _
    · rw [base]
      exact h.correction
    · have member : decide (k ∈ s.deferredOn f) = (s.stream k).any waits := by
        rw [Bool.eq_iff_iff, decide_eq_true_iff, mem_deferredOn, Option.any_eq_true]
        exact Iff.rfl
      rw [base, h.held, member]
      rfl
  have apart (x : FurnaceInput) (i : Fin 4) (other : i ≠ f) : (s.setFurnaceInput f x).furnaceInput i = s.furnaceInput i :=
    vget_vset_other _ other.symm _
  refine ⟨?_, fun u run stands reached => ?_⟩
  · intro c u tracked filter since held blanking lifted
    obtain ⟨w, y, edge, last, ending, outcome⟩ := revEdge_of_due sound tracked filter since held
    have release : ∃ ks, (s.setFurnaceInput f y).Released w f ks := by
      by_cases lifts : lifted
      · rw [if_pos lifts] at outcome
        exact ⟨_, outcome⟩
      · rw [if_neg lifts] at outcome
        exact ⟨[], outcome ▸ State.Released.nil _ f⟩
    obtain ⟨ks, h⟩ := release
    have row : exec (.reversal f) s = .next (settle (w.reversed f ((s.furnaceInput f).interval s.now))) := next_settle edge
    have interval : ((s.furnaceInput f).interval s.now).getD (s.fLive f).lastReversal =
        match (s.furnaceInput f).lastReversal with
        | some x => min 4294967295 ((now - x + 999) / 1000)
        | none => (s.fLive f).lastReversal := by
      unfold FurnaceInput.interval
      cases (s.furnaceInput f).lastReversal <;> rfl
    have counted := reversed_fLive w f ((s.furnaceInput f).interval s.now)
    have rest (i : Fin 4) (other : i ≠ f) := reversed_fLive_other w f ((s.furnaceInput f).interval s.now) other
    have frame := reversed_frame w f ((s.furnaceInput f).interval s.now)
    have running : w.run = s.run := (congrArg State.run h.frame :)
    have wLive : w.fLive f = { s.fLive f with base := (w.fLive f).base } := h.rest
    have base : ((w.reversed f ((s.furnaceInput f).interval s.now)).fLive f).base = (w.fLive f).base := by
      rw [counted]
      split <;> rfl
    generalize w.reversed f ((s.furnaceInput f).interval s.now) = v at row counted rest frame base
    have input (i : Fin 4) : v.furnaceInput i = (s.setFurnaceInput f y).furnaceInput i := by
      rw [frame, h.frame]
      rfl
    refine ⟨_, row, ?_, ?_, ?_, fun lifts => ?_, fun still => ?_, fun i other => ⟨?_, ?_⟩, ?_, ?_⟩
    · rw [settle_furnaceInput, input, show (s.setFurnaceInput f y).furnaceInput f = y from vget_vset_same _ _ _]
      exact last
    · rw [settle_furnaceInput, input, show (s.setFurnaceInput f y).furnaceInput f = y from vget_vset_same _ _ _]
      exact ending
    · rw [settle_fLive, base, counted, running]
      by_cases run : s.run = .run
      · rw [if_pos run, if_pos run, wLive]
        exact congrArg (fun r => ({ s.fLive f with
          base := (w.fLive f).base, reversals := min 4294967295 ((s.fLive f).reversals + 1), lastReversal := r } :
          FurnaceLive)) interval
      · rw [if_neg run, if_neg run]
        exact congrArg (fun x => vget x f) (h.idle run)
    · rw [if_pos lifts] at outcome
      refine ended y w _ outcome ?_ ?_ ?_ ?_
      · rw [settle_streams, frame]
      · rw [settle_strm_isPending, frame]
      · rw [settle_strm, frame]
      · rw [settle_fLive, base]
    · rw [if_neg still] at outcome
      rw [settle_streams, settle_fLive, base, frame, outcome]
      exact ⟨rfl, rfl⟩
    · rw [settle_fLive, rest i other]
      exact h.other i other
    · rw [settle_furnaceInput, input]
      exact apart y i other
    · rw [settle_lineLive, frame, h.frame]
      rfl
    · rw [settle_lineInputs, frame, h.frame]
      rfl
  · have expiry : s.blankingExpiry f = s.finishBlanking f :=
      if_pos ⟨run, by rw [stands]; exact decide_eq_true reached⟩
    have h := finishBlanking_released sound f
    have row : exec (.endOfBlanking f) s = .next (settle (s.finishBlanking f)) := next_settle expiry
    generalize s.finishBlanking f = w at row h
    refine ⟨_, row, ?_, ?_, ended _ w _ h (settle_streams w) (settle_strm_isPending w) (settle_strm w) ?_,
      fun i other => ⟨?_, ?_⟩, ?_, ?_⟩
    · rw [settle_furnaceInput, h.frame]
      exact vget_vset_same _ _ _
    · rw [settle_fLive]
      exact h.rest
    · rw [settle_fLive]
    · rw [settle_fLive]
      exact h.other i other
    · rw [settle_furnaceInput, h.frame]
      exact apart _ i other
    · rw [settle_lineLive, h.frame]
      rfl
    · rw [settle_lineInputs, h.frame]
      rfl
end
